-- ==== Sys2Proof/Word.lean ====
section
/-! DEFINITION. The word types of the Bridge: bytes, 16-bit and 32-bit words, 40-bit byte addresses. -/

namespace Sys2Proof

/-- One byte of data. -/
abbrev Byte := BitVec 8

/-- A 16-bit value: a tag, a generation number, a mask of the Event Unit, a register-window address. -/
abbrev Half := BitVec 16

/-- A 32-bit word: a register-window word, a counter, a sequence number, an epoch, a block serial. -/
abbrev Word := BitVec 32

/-- A 40-bit byte address of the memory ports (00, Interfaces at a Glance). -/
abbrev Addr := BitVec 40

end Sys2Proof
end

