-- ==== Sys2Proof/Syntax.lean ====
section
/-! DEFINITION. The commands of the Bridge: one constructor per row of spec/opcode_table.json, with the operands that the
rules of the row say the happening carries. -/

namespace Sys2Proof

/-- One byte lane of a write: its data and its strobe (00, Interfaces: "A write also carries a per-byte strobe"). -/
structure Lane where
  data   : Byte
  strobe : Bool
  deriving DecidableEq, Repr

/-- A write of the memory ports (R2): address, transaction ID, and one lane for each byte of its length. -/
structure WriteTxn where
  addr  : Addr
  id    : Byte
  lanes : List Lane
  deriving DecidableEq, Repr

/-- A read of the memory ports (R2): address, transaction ID and length. -/
structure ReadTxn where
  addr : Addr
  id   : Byte
  len  : Nat
  deriving DecidableEq, Repr

/-- The code of a write response (R2). -/
inductive WriteAnswer where
  | okay
  | error
  deriving DecidableEq, Repr

/-- A block in, as the Bridge receives it (R131, R132): whether the start bits fell in one period, the bytes, and per
active line (LDAT0 first) the CRC-16 and the end bit received. -/
structure BlockIn where
  aligned : Bool
  bytes   : List Byte
  crcs    : List Half
  ends    : List Bool
  deriving DecidableEq, Repr

/-- The commands: one constructor per row of spec/opcode_table.json, in the table's order. -/
inductive Instr where
  | pornFall
  /-- `csnLow`: CSn is low as PORn rises, so a frame is in progress that the port ignores (R202). -/
  | pornRise (csnLow : Bool)
  | upstreamWriteTaken (w : WriteTxn)
  | upstreamReadTaken (r : ReadTxn)
  | downstreamWriteResponse (id : Byte) (answer : WriteAnswer)
  | downstreamReadResponse (id : Byte) (data : List Byte) (status : Nat)
  | stallTimeout
  | markerWaitExpiry
  | fenceLimitExpiry
  | admitPendingVoid
  | admitHeldData
  | admitHeldMark
  | admitFinalMark
  | marknRequest
  | framerCopy
  | sealTimerExpiry
  | linkIdlePeriodEnd
  | resetSettleEnd
  | commandFrameEnd
  | commandGapEnd
  | respTimeout
  /-- The 160 bits of the long response as received, bit 159 first (R123, R208). -/
  | identResponse (bits : BitVec 160)
  | pollIntervalEnd
  | initTimeout
  /-- The 64 bits of the short response as received, bit 63 first (R123, R208); so for the five rows below too. -/
  | setupResponse (bits : BitVec 64)
  | statusResponse (bits : BitVec 64)
  | writeRunResponse (bits : BitVec 64)
  | endRunResponse (bits : BitVec 64)
  | commitResponse (bits : BitVec 64)
  | readOneResponse (bits : BitVec 64)
  | dataGapEnd
  | blockOutEnd
  | accept
  | crcBad
  | writeFail
  | range
  /-- The token's 4-bit code and its end bit (R133). -/
  | tokenInvalid (code : BitVec 4) (endBit : Bool)
  | tokenTimeout
  | busyEnd
  | busyTimeout
  | runIdleExpiry
  | readBlockReceived (b : BlockIn)
  | readTimeout
  /-- The bits sampled from SDI between the fall and the rise of CSn, first bit first (R201). -/
  | mgmtBadFrame (bits : List Bool)
  /-- The placement field and the short argument of the command word (R204). -/
  | start (placement : BitVec 2) (generation : Half)
  | stop
  | halt
  | softReset
  | pause
  | resume
  | mark (tag : Half)
  | reclaim
  | readback
  | recover
  | badCommandCode (code : BitVec 4)
  | flagWordWrite (value : Word)
  | enablesWrite (value : Word)
  | lineEnablesWrite (value : Word)
  | forceWordWrite (value : Word)
  | counterClear (address : Half) (value : Word)
  | lockedConfigWrite (address : Half) (value : Word)
  | registerWrite (address : Half) (value : Word)
  | csnRiseAfterPorn
  deriving DecidableEq, Repr

end Sys2Proof
end

