-- ==== Sys2Proof/Decode.lean ====
section
/-! DEFINITION. The command that a word of the opcode table's bits spells. -/

namespace Sys2Proof

/-- spec/opcode_table.json gives no row any bits: its rows are happenings, and no word spells one. The encodings the spec
does give stand elsewhere: the command word and WRITE frames in Machine/Registers.lean and Machine/Commands.lean (R201, R204),
link frames and tokens in Machine/Operands.lean (R208). -/
def decodeTableWord (_nbits _w : Nat) : Option Instr := none

end Sys2Proof
end

