-- ==== Sys2Proof/Machine/State.lean ====
section
/-! DEFINITION. The state of the Bridge as plain data: every register, queue, buffer, counter, mode and pin the spec gives
it, the reasons a step can stop, and the state after POR. -/

namespace Sys2Proof.Machine

/-! ## Configuration tables and words -/

/-- What a region does with a write when staging has no room (R4). -/
inductive Policy where
  | stall
  | shed
  deriving DecidableEq, Repr

/-- A Region Table entry (R4). Base and limit are kept as 4 KiB page addresses; the stall limit is in microseconds. -/
structure Region where
  enabled    : Bool
  basePage   : BitVec 28
  limitPage  : BitVec 28
  policy     : Policy
  stallLimit : Half
  coalesce   : Bool
  label      : Byte
  deriving DecidableEq, Repr

/-- A Trigger Table entry (R7). -/
structure Trigger where
  enabled : Bool
  addr    : Addr
  fenced  : Bool
  deriving DecidableEq, Repr

/-- An Extent Table entry (R98). -/
structure Extent where
  valid  : Bool
  start  : Word
  count  : BitVec 24
  last   : Bool
  notify : Bool
  deriving DecidableEq, Repr

/-- The block sizes B (R59). -/
inductive BlockSize where
  | b512
  | b1024
  | b2048
  | b4096
  deriving DecidableEq, Repr

/-- The link widths (R118). -/
inductive Width where
  | one
  | four
  deriving DecidableEq, Repr

/-- The configuration words (R188, R204). The busy and fence limits are in milliseconds, the run idle limit and the seal
timer in microseconds, the watermarks in bytes, the low-space threshold in blocks. -/
structure ConfigWords where
  blockSize     : BlockSize
  busWidth      : Width
  initDivisor   : Byte
  runDivisor    : Byte
  retryLimit    : BitVec 3
  busyLimit     : Nat
  runIdleLimit  : Half
  sealTimer     : Half
  fenceLimit    : Nat
  highWatermark : Nat
  lowWatermark  : Nat
  lowSpace      : Word
  deriving DecidableEq, Repr

/-! ## Records -/

/-- START's placement (R103). -/
inductive Placement where
  | continue
  | fromOrigin
  deriving DecidableEq, Repr

/-- The source of a marker (R35). -/
inductive Source where
  | trigger (n : Fin 4)
  | pin
  | command
  deriving DecidableEq, Repr

/-- The fields of a GEN record (R29). -/
structure GenFields where
  generation : Half
  blockSize  : BlockSize
  regionSet  : Half
  triggerSet : BitVec 4
  fencedSet  : BitVec 4
  placement  : Placement
  deriving DecidableEq, Repr

/-- The fields of a DATA record (R30). The mask is there exactly when the record is MASKED (R31); `data` holds `length`
bytes, without the pad. -/
structure DataFields where
  label     : Byte
  addr      : Addr
  length    : Nat
  coalesced : Bool
  mask      : Option (BitVec 256)
  data      : List Byte
  deriving DecidableEq, Repr

/-- The fields of a GAP record (R34). The end address is kept modulo 2^40, as R206 stores it. -/
structure GapFields where
  label     : Byte
  mixed     : Bool
  firstAddr : Addr
  endAddr   : Addr
  count     : Half
  bytes     : Word
  deriving DecidableEq, Repr

/-- The fields of a MARK record (R35). -/
structure MarkFields where
  epoch  : Word
  tag    : Half
  source : Source
  fenced : Bool
  final  : Bool
  deriving DecidableEq, Repr

/-- The fields of a VOID record (R36), and of a pending VOID (R21). -/
structure VoidFields where
  voided : Word
  addr   : Addr
  length : Nat
  deriving DecidableEq, Repr

/-- What a record holds, by kind (R24). -/
inductive Body where
  | gen  (f : GenFields)
  | data (f : DataFields)
  | gap  (f : GapFields)
  | mark (f : MarkFields)
  | void (f : VoidFields)
  deriving DecidableEq, Repr

/-- A record that has entered staging, with its sequence number (R26). -/
structure Record where
  seq  : Word
  body : Body
  deriving DecidableEq, Repr

/-! ## Pass-Through Path and Response Tracking Queue -/

/-- A timer in microseconds: the limit it runs against and its running value. -/
structure Timer where
  limit   : Nat
  elapsed : Nat
  deriving DecidableEq, Repr

/-- The hold reasons of R10, each with what its release needs. `region` and `trig` are the winning region and the matching
trigger of the held write. -/
inductive Hold where
  /-- ADMISSION of the formed DATA record (R13). -/
  | admitData (region : Fin 16) (trig : Option (Fin 4)) (fields : DataFields)
  /-- TRACKING; `seq` is the sequence number of the write's DATA record, `stopped` that STOP was taken meanwhile (R14, R17). -/
  | tracking (seq : Word) (region : Fin 16) (trig : Option (Fin 4)) (stopped : Bool)
  /-- MARKER: the Marker List has no free entry (R15). -/
  | marker (trig : Fin 4)
  /-- ADMISSION of the MARK record (R15). -/
  | admitMark (trig : Fin 4)
  /-- FENCE, with the awaited epoch (R91). -/
  | fence (epoch : Word)
  deriving DecidableEq, Repr

/-- The held-write slot when occupied (R10). A hold whose limit is 0 has no timer. -/
structure Held where
  write : WriteTxn
  hold  : Hold
  timer : Option Timer
  deriving DecidableEq, Repr

/-- A tracking entry (R19). The ordinal is absent until the write is forwarded (R20). -/
structure TrackEntry where
  ordinal : Option Word
  seq     : Word
  addr    : Addr
  length  : Nat
  ended   : Bool
  deriving DecidableEq, Repr

/-- The Response Tracking Queue (R18, R19, R22), oldest entries first. -/
structure Rtq where
  forwardCount : Word
  answerCount  : Word
  tracking     : List TrackEntry
  voids        : List VoidFields
  deriving DecidableEq, Repr

/-! ## Capture Unit and Staging Queue -/

/-- The open-record state (R25, R37). -/
structure OpenRec where
  seq    : Word
  region : Fin 16
  addr   : Addr
  length : Nat
  deriving DecidableEq, Repr

/-- The open-GAP state (R25, R52). -/
structure OpenGap where
  seq    : Word
  fields : GapFields
  deriving DecidableEq, Repr

/-- The Capture Unit (R25). -/
structure Capture where
  seqCounter   : Word
  epochCounter : Word
  openRec      : Option OpenRec
  openGap      : Option OpenGap
  deriving DecidableEq, Repr

/-- A record in staging, with the number of its bytes the Framer has taken (R46). -/
structure Staged where
  record : Record
  taken : Nat
  deriving DecidableEq, Repr

/-- The FINAL MARK claim of R84: none, waiting for a list entry or for room, or entered (R21, R57). -/
inductive FinalMark where
  | none
  | waiting
  | entered
  deriving DecidableEq, Repr

/-- The Staging Queue (R45), oldest record first, with the STAGING_HIGH armed state (R56). `lowWritten` says that since the last
change of occupancy the low watermark was written while occupancy stood below it, so that it takes effect at the next change. -/
structure Staging where
  queue      : List Staged
  highArmed  : Bool
  finalMark  : FinalMark
  lowWritten : Bool
  deriving DecidableEq, Repr

/-! ## Block Framer and Block Window -/

/-- The seal causes (R65). -/
inductive SealCause where
  | full
  | mark
  | timer
  | pause
  | final
  deriving DecidableEq, Repr

/-- A block while it is assembled (R59, R61): the header fields so far and the used payload bytes. -/
structure Draft where
  generation : Half
  serial     : Word
  lead       : Nat
  starts     : Nat
  firstSeq   : Word
  payload    : List Byte
  deriving DecidableEq, Repr

/-- A sealed block (R65). -/
structure Block where
  draft : Draft
  epoch : Word
  cause : SealCause
  deriving DecidableEq, Repr

/-- A slot of the Block Window (R70). -/
inductive Slot where
  | free
  | assembling (d : Draft)
  | sealed (b : Block)
  | inFlight (b : Block)
  deriving DecidableEq, Repr

/-- The due seal (R61). -/
inductive DueSeal where
  | none
  | timer
  | pause
  deriving DecidableEq, Repr

/-- The Block Framer (R61); its assembling slot is the window's slot that is ASSEMBLING. -/
structure Framer where
  generation    : Half
  blockSize     : BlockSize
  serialCounter : Word
  framingEpoch  : Word
  sealTimer     : Option Timer
  due           : DueSeal
  deriving DecidableEq, Repr

/-! ## Marker List -/

/-- The states of a marker entry (R77). -/
inductive MarkerState where
  | recorded
  | sealed
  | accepted
  deriving DecidableEq, Repr

/-- A marker entry (R77). -/
structure Marker where
  epoch  : Word
  tag    : Half
  source : Source
  fenced : Bool
  final  : Bool
  recSeq : Word
  serial : Option Word
  state  : MarkerState
  deriving DecidableEq, Repr

/-- The Marker List (R77), oldest entry first. -/
structure MarkerList where
  entries      : List Marker
  durableEpoch : Word
  durableTag   : Half
  commitEpoch  : Option Word
  deriving DecidableEq, Repr

/-! ## Space Tracker -/

/-- A position on the chain (R101). -/
structure Pos where
  entry  : Nat
  offset : Nat
  deriving DecidableEq, Repr

/-- The Space Tracker (R101). The capacity is computed from the kept chain. -/
structure Space where
  chain        : List Extent
  head         : Pos
  boundary     : Pos
  tail         : Pos
  origin       : Pos
  used         : Nat
  durableUsed  : Nat
  recordedHead : Option Pos
  lowArmed     : Bool
  deriving DecidableEq, Repr

/-! ## Store Link Engine -/

/-- The link commands (R121). -/
inductive LinkCmd where
  | resetStore
  | ident
  | setup
  | writeRun
  | endRun
  | commit
  | status
  | readOne
  deriving DecidableEq, Repr

/-- The thirteen link states (R143). -/
inductive LinkState where
  | off
  | init
  | ready
  | opening
  | inRun
  | sending
  | tokenWait
  | programming
  | ending
  | committing
  | reading
  | recovering
  | fault
  deriving DecidableEq, Repr

/-- The step of the exchange in progress. At rest, `cmdGap` and `dataGap` say whether the command gap (R119) and the data
gap (R132) are still running. Block steps carry the block's serial and store block address, busy waits the busy limit read
at their start (R134). -/
inductive Phase where
  | rest (cmdGap dataGap : Bool)
  | idlePeriod
  | gap (c : LinkCmd)
  | frame (c : LinkCmd)
  | window (c : LinkCmd)
  | settle
  | poll
  | blockOut (serial addr : Word)
  | token (serial addr : Word)
  | busyToken (serial addr : Word) (limit : Nat)
  | busyCmd (c : LinkCmd) (limit : Nat)
  | readData
  deriving DecidableEq, Repr

/-- The last store status (R126). -/
structure StoreStatus where
  status : Word
  code   : Byte
  cmd    : LinkCmd
  deriving DecidableEq, Repr

/-- A store identity (R123, R139). -/
structure Identity where
  capacity : Word
  sizes    : BitVec 4
  maxWidth : BitVec 4
  serial   : BitVec 64
  deriving DecidableEq, Repr

/-- The run record (R142), with the tag of the WRITE_RUN that opened the run (R158). A run is counted when its count is at
most 255. -/
structure Run where
  start     : Word
  count     : Nat
  remaining : Nat
  tag       : Byte
  deriving DecidableEq, Repr

/-- The error kinds of R135, in the order of its table. -/
inductive LinkErr where
  | respTimeout
  | respCrc
  | respCode
  | respTag
  | respStatus
  | respState
  | tokenTimeout
  | tokenInvalid
  | tokenCrcBad
  | tokenWriteFail
  | tokenRange
  | busyTimeout
  | readTimeout
  | readCrc
  | initTimeout
  | identMismatch
  deriving DecidableEq, Repr

/-- What the Link Engine did after an error (R158). -/
inductive ErrOutcome where
  | retry
  | recovery
  | reinit
  | fault
  | failed
  deriving DecidableEq, Repr

/-- The journal states (R171). -/
inductive JournalState where
  | stopped
  | starting
  | active
  | pausing
  | paused
  | draining
  | faulted
  deriving DecidableEq, Repr

/-- The last-error detail (R158). -/
structure ErrorDetail where
  kind    : LinkErr
  cmd     : LinkCmd
  tag     : Byte
  serial  : Option Word
  addr    : Option Word
  attempt : Nat
  link    : LinkState
  journal : JournalState
  outcome : ErrOutcome
  deriving DecidableEq, Repr

/-- The configuration read at the start of an initialisation (R136). -/
structure InitValues where
  initDivisor : Byte
  runDivisor  : Byte
  width       : Width
  blockSize   : BlockSize
  retryLimit  : BitVec 3
  busyLimit   : Nat
  deriving DecidableEq, Repr

/-- The Store Link Engine (R142). -/
structure Link where
  state       : LinkState
  phase       : Phase
  clockOn     : Bool
  divisor     : Byte
  width       : Width
  tagCounter  : Byte
  sentTag     : Byte
  lastStatus  : Option StoreStatus
  storeId     : Option Identity
  genStoreId  : Option Identity
  run         : Option Run
  attempts    : Nat
  sendCount   : Nat
  idle        : Option Timer
  pauseReq    : Bool
  recovery    : Bool
  readback    : Option Word
  lastError   : Option ErrorDetail
  initValues  : InitValues
  consecutive : Nat
  initExpired : Bool
  abandoning  : Bool
  resetDue    : Bool
  setupSize   : BlockSize
  deriving DecidableEq, Repr

/-! ## Readback buffer -/

/-- A byte memory as a list of (address, byte) cells in one canonical form: addresses strictly rising, no zero byte listed. -/
abbrev Memory := List Host.Cell

/-! ## Journal Control -/

/-- The resume states (R171). -/
inductive Resume where
  | active
  | paused
  | draining
  deriving DecidableEq, Repr

/-- The status of a command record (R175). -/
inductive CmdStatus where
  | idle
  | running
  | done
  | refused
  | failed
  | abandoned
  deriving DecidableEq, Repr

/-- The refusal and failure reasons (R175). -/
inductive Reason where
  | busy
  | badState
  | badArgument
  | extentInvalid
  | listFull
  | range
  | linkFault
  | initFail
  | crcMismatch
  | readError
  deriving DecidableEq, Repr

/-- A command record (R175); `r0` and `r1` are its result words, 0 where unused (R205). -/
structure CmdRecord where
  number : Byte
  code   : BitVec 4
  status : CmdStatus
  reason : Option Reason
  r0     : Word
  r1     : Word
  deriving DecidableEq, Repr

/-- Journal Control (R171). -/
structure Journal where
  state      : JournalState
  resume     : Option Resume
  generation : Half
  number     : Byte
  slot       : CmdRecord
  side       : Option CmdRecord
  overtaken  : Option CmdRecord
  deriving DecidableEq, Repr

/-! ## Event Unit and ports -/

/-- The masks of the Event Unit (R190). -/
structure Events where
  flags       : Half
  enables     : Half
  lineEnables : Half
  deriving DecidableEq, Repr

/-- A transaction of the memory ports. -/
inductive Txn where
  | write (w : WriteTxn)
  | read (r : ReadTxn)
  deriving DecidableEq, Repr

/-- A response of the memory ports (R2). -/
inductive Response where
  | write (id : Byte) (answer : WriteAnswer)
  | read (id : Byte) (data : List Byte) (status : Nat)
  deriving DecidableEq, Repr

/-- What the Bridge sends on the store link, noted as it starts out: a command frame (R119), or the bytes of a block at a
width (R132). `cut` says that what was noted before it did not go out to its end: the lines were released first, for a
RESET_STORE (R128) or by PORn falling (R169). -/
inductive LinkOut where
  | frame (bits : BitVec 64)
  | block (width : Width) (bytes : List Byte)
  | cut
  deriving DecidableEq, Repr

/-- The MODEL's own record of what passed the ports, oldest first (log entry 2): transactions taken upstream, transactions
forwarded downstream, responses returned upstream, what was sent on the store link, and the bits that each READ frame shifted
out on SDO (R201). -/
structure Ports where
  taken      : List Txn
  downstream : List Txn
  upstream   : List Response
  linkOut    : List LinkOut
  mgmtOut    : List (List Bool)
  deriving DecidableEq, Repr

/-! ## The state -/

/-- The state of the Bridge, with the queue of the commands that are waiting. -/
structure State where
  pornLow    : Bool
  mgmtIgnore : Bool
  held       : Option Held
  regions    : Vector Region 16
  triggers   : Vector Trigger 4
  extents    : Vector Extent 32
  words      : ConfigWords
  argWord    : Word
  rtq        : Rtq
  capture    : Capture
  staging    : Staging
  framer     : Framer
  window     : Vector Slot 8
  markers    : MarkerList
  space      : Space
  link       : Link
  buffer     : Memory
  journal    : Journal
  events     : Events
  counters   : Vector Word 15
  ports      : Ports
  pending    : List Instr
  deriving DecidableEq, Repr

/-- Why the machine stops. -/
inductive Fault where
  /-- Raised by UPSTREAM_WRITE_TAKEN and UPSTREAM_READ_TAKEN for a transaction whose length is not 1 to 256, which the
  memory ports cannot carry (00, Interfaces at a Glance). Safe: no such transaction exists (log entry 4). -/
  | transferLength
  deriving DecidableEq, Repr

/-- Why a command is refused. -/
inductive Refusal where
  /-- Raised by an arm of exec for a command that has no meaning yet. Safe. No arm does so any more. -/
  | notModelled (mnemonic : String)
  deriving DecidableEq, Repr

/-! ## Reset -/

/-- A region entry after POR (R4). -/
def Region.por : Region :=
  { enabled := false, basePage := 0, limitPage := 0, policy := .stall, stallLimit := 0, coalesce := false, label := 0 }

/-- A trigger entry after POR (R7). -/
def Trigger.por : Trigger := { enabled := false, addr := 0, fenced := false }

/-- An extent entry after POR (R98). -/
def Extent.por : Extent := { valid := false, start := 0, count := 0, last := false, notify := false }

/-- The configuration words after POR (R204). -/
def ConfigWords.por : ConfigWords :=
  { blockSize := .b4096, busWidth := .four, initDivisor := 249, runDivisor := 1, retryLimit := 3, busyLimit := 250,
    runIdleLimit := 1000, sealTimer := 0, fenceLimit := 100, highWatermark := 49152, lowWatermark := 16384, lowSpace := 64 }

/-- The Framer after POR (R61). -/
def Framer.por : Framer :=
  { generation := 0, blockSize := .b4096, serialCounter := 0, framingEpoch := 1, sealTimer := none, due := .none }

/-- The Space Tracker after POR (R101, R106). -/
def Space.por : Space :=
  { chain := [], head := ⟨0, 0⟩, boundary := ⟨0, 0⟩, tail := ⟨0, 0⟩, origin := ⟨0, 0⟩, used := 0, durableUsed := 0,
    recordedHead := none, lowArmed := true }

/-- The Link Engine after POR (R142, R169). DESIGN CHOICE (log entry 20): the fields without a reset value in the spec. -/
def Link.por : Link :=
  { state := .off, phase := .rest false false, clockOn := false, divisor := 249, width := .one, tagCounter := 0, sentTag := 0,
    lastStatus := none, storeId := none, genStoreId := none, run := none, attempts := 0, sendCount := 0, idle := none,
    pauseReq := false, recovery := false, readback := none, lastError := none,
    initValues := { initDivisor := 249, runDivisor := 1, width := .four, blockSize := .b4096, retryLimit := 3,
                    busyLimit := 250 },
    consecutive := 0, initExpired := false, abandoning := false, resetDue := false, setupSize := .b4096 }

/-- Journal Control after POR (R171): STOPPED, the slot record IDLE with no command. -/
def Journal.por : Journal :=
  { state := .stopped, resume := none, generation := 0, number := 0,
    slot := { number := 0, code := 0, status := .idle, reason := none, r0 := 0, r1 := 0 }, side := none, overtaken := none }

/-- The Bridge right after power-on reset, PORn high (log entry 1): every field at the value the spec states for POR. -/
def State.reset : State :=
  { pornLow := false
    mgmtIgnore := false
    held := none
    regions := Vector.replicate 16 Region.por
    triggers := Vector.replicate 4 Trigger.por
    extents := Vector.replicate 32 Extent.por
    words := ConfigWords.por
    argWord := 0
    rtq := { forwardCount := 0, answerCount := 0, tracking := [], voids := [] }
    capture := { seqCounter := 0, epochCounter := 1, openRec := none, openGap := none }
    staging := { queue := [], highArmed := true, finalMark := .none, lowWritten := false }
    framer := Framer.por
    window := Vector.replicate 8 .free
    markers := { entries := [], durableEpoch := 0, durableTag := 0, commitEpoch := none }
    space := Space.por
    link := Link.por
    buffer := []
    journal := Journal.por
    events := { flags := 0, enables := 0, lineEnables := 0 }
    counters := Vector.replicate 15 0
    ports := { taken := [], downstream := [], upstream := [], linkOut := [], mgmtOut := [] }
    pending := [] }

end Sys2Proof.Machine
end

