-- ==== Sys2Proof/Machine/Flags.lean ====
section
/-! DEFINITION. The Event Unit: flags, masks, the interrupt line, and the fifteen counters (chapter 10). -/

namespace Sys2Proof.Machine

/-- The sixteen events (R191). -/
inductive Event where
  | epochDurable
  | markLost
  | markDropped
  | gapOpened
  | stagingHigh
  | storeLow
  | storeFull
  | linkError
  | linkFault
  | stallTimeout
  | fenceTimeout
  | voidRecorded
  | voidLate
  | extentNotify
  | configRefused
  | commandDone
  deriving DecidableEq, Repr

/-- The number of an event, its bit in the masks (R190, R191). -/
def eventNumber : Event → Nat
  | .epochDurable => 0
  | .markLost => 1
  | .markDropped => 2
  | .gapOpened => 3
  | .stagingHigh => 4
  | .storeLow => 5
  | .storeFull => 6
  | .linkError => 7
  | .linkFault => 8
  | .stallTimeout => 9
  | .fenceTimeout => 10
  | .voidRecorded => 11
  | .voidLate => 12
  | .extentNotify => 13
  | .configRefused => 14
  | .commandDone => 15

/-- The bit of an event in a mask (R190). -/
def eventBit (e : Event) : Half := 1#16 <<< eventNumber e

/-- The cause of an event is met if `c` holds: its flag then becomes set if its enable is set (R191). -/
def raiseIf (c : Bool) (e : Event) (s : State) : State :=
  { s with events.flags := s.events.flags ||| (if c then eventBit e &&& s.events.enables else 0) }

/-- The cause of an event is met (R191). -/
def raise (e : Event) (s : State) : State := raiseIf true e s

/-- A write to the flag word clears each flag whose bit is 1 (R192). -/
def clearFlags (v : Half) (s : State) : State := { s with events.flags := s.events.flags &&& ~~~v }

/-- A write to the force word sets each flag whose bit is 1 and whose enable is set (R194). -/
def forceFlags (v : Half) (s : State) : State :=
  { s with events.flags := s.events.flags ||| (v &&& s.events.enables) }

/-- A write to the enables replaces the mask (R193). -/
def setEnables (v : Half) (s : State) : State := { s with events.enables := v }

/-- A write to the line enables replaces the mask (R193). -/
def setLineEnables (v : Half) (s : State) : State := { s with events.lineEnables := v }

/-- The asserting set (R195). -/
def assertingSet (s : State) : Half := s.events.flags &&& s.events.enables &&& s.events.lineEnables

/-- IRQn is driven low exactly while the asserting set is not empty (R195). -/
def irqLow (s : State) : Bool := assertingSet s != 0

/-- The fifteen counters, in the order of the table of R198. -/
inductive Counter where
  | capturedWrites
  | capturedBytes
  | gapRecords
  | lostWrites
  | lostBytes
  | voids
  | voidsLate
  | marksLost
  | crossing
  | blocksSealed
  | blocksAccepted
  | commits
  | linkErrors
  | retries
  | mgmtBadFrames
  deriving DecidableEq, Repr

/-- The place of a counter in the table of R198, and its word from 0x0050 on (R204). -/
def counterIndex : Counter → Fin 15
  | .capturedWrites => 0
  | .capturedBytes => 1
  | .gapRecords => 2
  | .lostWrites => 3
  | .lostBytes => 4
  | .voids => 5
  | .voidsLate => 6
  | .marksLost => 7
  | .crossing => 8
  | .blocksSealed => 9
  | .blocksAccepted => 10
  | .commits => 11
  | .linkErrors => 12
  | .retries => 13
  | .mgmtBadFrames => 14

/-- A 32-bit count raised by n, holding at its maximum (R198). -/
def saturate (a : Word) (n : Nat) : Word := BitVec.ofNat 32 (min (a.toNat + n) 4294967295)

/-- The value of a counter. -/
def counterValue (c : Counter) (s : State) : Word := s.counters[counterIndex c]

/-- A counter is increased by n in the happening of its cause (R198). -/
def bump (c : Counter) (n : Nat) (s : State) : State :=
  { s with counters := s.counters.set (counterIndex c) (saturate (counterValue c s) n) }

/-- A write of any value to a counter clears it (R198). -/
def clearCounter (i : Fin 15) (s : State) : State := { s with counters := s.counters.set i 0 }

/-- SOFT_RESET clears every event flag and sets every counter to 0 (R187, R197, R199). -/
def clearEvents (s : State) : State :=
  { s with events.flags := 0, counters := Vector.replicate 15 0 }

end Sys2Proof.Machine
end

