-- ==== Sys2Proof/Machine/Operands.lean ====
section
/-! DEFINITION. What the Bridge reads out of what reaches it, and how it writes what it sends: the fields of a write, bits
and bytes, the check codes, the frames of the store link, and the lines of a block (chapters 1, 2, 7 and 11). -/

namespace Sys2Proof.Machine

/-! ## Writes (chapter 1) -/

/-- The length of a write: one lane a byte. -/
def writeLength (w : WriteTxn) : Nat := w.lanes.length

/-- A length the memory ports carry: 1 to 256 bytes (00). -/
def lengthInRange (n : Nat) : Bool := 1 ≤ n && n ≤ 256

/-- A write crosses a 4 KiB boundary when its first and last byte lie in different pages (R6). -/
def crosses (w : WriteTxn) : Bool :=
  w.addr.toNat / 4096 != (w.addr.toNat + writeLength w - 1) / 4096

/-- The 4 KiB page of an address. -/
def pageOf (a : Addr) : BitVec 28 := a.extractLsb' 12 28

/-- A region entry contains an address (R4). -/
def regionContains (r : Region) (a : Addr) : Bool :=
  r.enabled && decide (r.basePage ≤ pageOf a) && decide (pageOf a ≤ r.limitPage)

/-- The winning region: the lowest-numbered enabled entry that contains the first byte (R5). -/
def winningRegion (rs : Vector Region 16) (w : WriteTxn) : Option (Fin 16) :=
  (List.finRange 16).find? fun n => regionContains rs[n] w.addr

/-- The matching trigger: the lowest-numbered enabled entry whose address equals that of the first byte (R8). -/
def matchingTrigger (ts : Vector Trigger 4) (w : WriteTxn) : Option (Fin 4) :=
  (List.finRange 4).find? fun n => ts[n].enabled && ts[n].addr == w.addr

/-- A lane's byte as the journal takes it: zero when its strobe is off (R8, R31). -/
def laneByte (l : Lane) : Byte := if l.strobe then l.data else 0

/-- The marker tag of a trigger write: its first two bytes, little-endian, an unstrobed or missing byte counting as zero
(R8). -/
def writeTag (w : WriteTxn) : Half :=
  let lo := (w.lanes[0]?.map laneByte).getD 0
  let hi := (w.lanes[1]?.map laneByte).getD 0
  hi ++ lo

/-- Every byte of the write has its strobe on. -/
def fullyStrobed (w : WriteTxn) : Bool := w.lanes.all (·.strobe)

/-- A list of bits read as a number, the first bit least significant. -/
def bitsToNat : List Bool → Nat
  | [] => 0
  | b :: bs => b.toNat + 2 * bitsToNat bs

/-- The strobe mask: bit i is the strobe of byte i, bits at or beyond the length clear (R31). -/
def strobeMask (w : WriteTxn) : BitVec 256 := BitVec.ofNat 256 (bitsToNat (w.lanes.map (·.strobe)))

/-- The DATA record formed from one write of a region (R30, R31). -/
def formData (w : WriteTxn) (r : Region) : DataFields :=
  { label := r.label, addr := w.addr, length := writeLength w, coalesced := false,
    mask := if fullyStrobed w then none else some (strobeMask w), data := w.lanes.map laneByte }

/-! ## Bits, bytes and check codes -/

/-- The bits of a value, most significant first, as every frame is sent (00, Byte and bit order). -/
def bitsOf {n : Nat} (x : BitVec n) : List Bool := (List.range n).map x.getMsbD

/-- One step of the division by a polynomial of degree n: the next bit meets the register's top bit. PRESUMED (log entry 40): the
usual CRC register, which leaves the remainder of the bits followed by n zero bits, where R119 and R123 speak of the remainder of
the bits. -/
def crcStep {n : Nat} (poly r : BitVec n) (b : Bool) : BitVec n :=
  if r.msb ^^ b then (r <<< 1) ^^^ poly else r <<< 1

/-- The remainder of a bit sequence, taken in its order, from an initial value. -/
def crcBits {n : Nat} (poly init : BitVec n) (bs : List Bool) : BitVec n := bs.foldl (crcStep poly) init

/-- CRC-8 of link commands and responses: x^8 + x^2 + x + 1, initial value 0 (R119; log entry 40). -/
def crc8 (bs : List Bool) : Byte := crcBits 0x07#8 0 bs

/-- CRC-16 of long responses and data lines: x^16 + x^12 + x^5 + 1, initial value 0 (R123; log entry 40). -/
def crc16 (bs : List Bool) : Half := crcBits 0x1021#16 0 bs

/-- The bits of a byte, least significant first. -/
def bitsLsb (b : Byte) : List Bool := (List.range 8).map b.getLsbD

/-- CRC-32 of blocks (R207): bytes least significant bit first, register of all ones, result inverted. PRESUMED (log
entry 11): the register bit that holds x^31 is bit 0 of the stored result, the usual reading of these parameters. -/
def crc32 (bytes : List Byte) : Word :=
  ~~~(crcBits 0x04C11DB7#32 (BitVec.allOnes 32) (bytes.flatMap bitsLsb)).reverse

/-- A number as n bytes, little-endian (R206, R207). -/
def littleEndian : Nat → Nat → List Byte
  | 0, _ => []
  | n + 1, v => BitVec.ofNat 8 v :: littleEndian n (v / 256)

/-- Bytes read as a little-endian number. -/
def fromLittleEndian : List Byte → Nat
  | [] => 0
  | b :: bs => b.toNat + 256 * fromLittleEndian bs

/-- A list brought to exactly n bytes: cut, or filled with zero. -/
def fitBytes (n : Nat) (bs : List Byte) : List Byte := bs.take n ++ List.replicate (n - bs.length) 0

/-- A Nat rounded up to a multiple of 8. -/
def roundUp8 (n : Nat) : Nat := (n + 7) / 8 * 8

/-- B in bytes (R59). -/
def blockBytes : BlockSize → Nat
  | .b512 => 512
  | .b1024 => 1024
  | .b2048 => 2048
  | .b4096 => 4096

/-- The payload of a block of size B: B − 32 bytes (R59). -/
def payloadSize (b : BlockSize) : Nat := blockBytes b - 32

/-- The place of a block size in the encodings of R204 and R208: 0 for 512 up to 3 for 4,096. -/
def blockSizeIndex : BlockSize → Nat
  | .b512 => 0
  | .b1024 => 1
  | .b2048 => 2
  | .b4096 => 3

/-- The number of active data lines (R118). -/
def widthLines : Width → Nat
  | .one => 1
  | .four => 4

/-! ## Store link frames (R119, R121, R123, R208) -/

/-- The command codes (R208). -/
def commandCode : LinkCmd → BitVec 4
  | .resetStore => 0x0
  | .ident => 0x2
  | .setup => 0x3
  | .writeRun => 0x5
  | .endRun => 0x6
  | .commit => 0x9
  | .status => 0xA
  | .readOne => 0xC

/-- The 54 bits of a command frame before its check code: start 0, direction 1, code, tag, argument (R119). -/
def frameBody (c : LinkCmd) (tag : Byte) (arg : BitVec 40) : BitVec 54 :=
  0#1 ++ 1#1 ++ commandCode c ++ tag ++ arg

/-- A command frame of 64 bits (R119, R208). -/
def commandFrame (c : LinkCmd) (tag : Byte) (arg : BitVec 40) : BitVec 64 :=
  frameBody c tag arg ++ crc8 (bitsOf (frameBody c tag arg)) ++ 3#2

/-- The argument of WRITE_RUN and READ_ONE: block address and count field (R208). -/
def addressArgument (addr : Word) (countField : Byte) : BitVec 40 := addr ++ countField

/-- The argument of SETUP: width in bits 3 to 0, block size in bits 5 to 4 (R208). -/
def setupArgument (w : Width) (b : BlockSize) : BitVec 40 :=
  BitVec.ofNat 40 (widthLines w + 16 * blockSizeIndex b)

/-- The status word of a short response (R208). -/
def shortStatus (bits : BitVec 64) : Word := bits.extractLsb' 18 32

/-- The state code of a short response (R208). -/
def shortState (bits : BitVec 64) : Byte := bits.extractLsb' 10 8

/-- Checks 2 to 4 of R124 on a short response: the transport error, if any. -/
def shortTransport (c : LinkCmd) (tag : Byte) (bits : BitVec 64) : Option LinkErr :=
  if crc8 (bitsOf (bits.extractLsb' 10 54)) != bits.extractLsb' 2 8 || bits.getLsbD 62 || bits.extractLsb' 0 2 != 3#2 then
    some .respCrc
  else if bits.extractLsb' 58 4 != commandCode c then some .respCode
  else if bits.extractLsb' 50 8 != tag then some .respTag
  else none

/-- Checks 2 to 4 of R124 on a long response. -/
def longTransport (c : LinkCmd) (tag : Byte) (bits : BitVec 160) : Option LinkErr :=
  if crc16 (bitsOf (bits.extractLsb' 18 142)) != bits.extractLsb' 2 16 || bits.getLsbD 158 || bits.extractLsb' 0 2 != 3#2 then
    some .respCrc
  else if bits.extractLsb' 154 4 != commandCode c then some .respCode
  else if bits.extractLsb' 146 8 != tag then some .respTag
  else none

/-- A named bit of the status word (R126, R208). -/
def statusReady (w : Word) : Bool := w.getLsbD 0
/-- RUN_OPEN (R126, R208). -/
def statusRunOpen (w : Word) : Bool := w.getLsbD 1
/-- ERR_WRITE (R126, R208). -/
def statusErrWrite (w : Word) : Bool := w.getLsbD 10
/-- Any ERR bit: ERR_RANGE, ERR_ORDER, ERR_WRITE, ERR_COMMIT, ERR_SETUP in bits 8 to 12 (R126, R208). -/
def statusAnyErr (w : Word) : Bool := w.extractLsb' 8 5 != 0#5

/-- The state code, READY and RUN_OPEN that a command should leave (R125; codes of R208). -/
def expectedState : LinkCmd → Byte × Bool × Bool
  | .writeRun => (0x03, true, true)
  | .endRun | .commit => (0x04, true, false)
  | .setup | .readOne | .status | .resetStore | .ident => (0x02, true, false)

/-- Checks 5 and 6 of R124 on a short response: the status error, if any. -/
def shortStatusError (c : LinkCmd) (bits : BitVec 64) : Option LinkErr :=
  let w := shortStatus bits
  if statusAnyErr w then some .respStatus
  else if (shortState bits, statusReady w, statusRunOpen w) != expectedState c then some .respState
  else none

/-- The identity of a long response (R208). -/
def longIdentity (bits : BitVec 160) : Identity :=
  { capacity := bits.extractLsb' (18 + 96) 32, sizes := bits.extractLsb' (18 + 92) 4,
    maxWidth := bits.extractLsb' (18 + 88) 4, serial := bits.extractLsb' 18 64 }

/-- The write tokens by code and end bit (R133, R208). -/
inductive Token where
  | accept
  | crcBad
  | writeFail
  | range
  | invalid
  deriving DecidableEq, Repr

/-- Reading a token (R133, R208). -/
def readToken (code : BitVec 4) (endBit : Bool) : Token :=
  if !endBit then .invalid
  else if code = 0x5 then .accept
  else if code = 0xB then .crcBad
  else if code = 0xD then .writeFail
  else if code = 0x3 then .range
  else .invalid

/-! ## Blocks on the data lines (R118, R131, R132) -/

/-- The data bits that line j carries for a block's bytes at a width (R118): at width 1 each byte most significant bit
first, at width 4 the high group and then the low one. -/
def lineBits (w : Width) (j : Nat) (bytes : List Byte) : List Bool :=
  match w with
  | .one => bytes.flatMap bitsOf
  | .four => bytes.flatMap fun b => [b.getLsbD (4 + j), b.getLsbD j]

/-- What the Bridge sends on line j for a block out: start bit 0, data, CRC-16, end bit 1 (R132). -/
def lineFrame (w : Width) (j : Nat) (bytes : List Byte) : List Bool :=
  [false] ++ lineBits w j bytes ++ bitsOf (crc16 (lineBits w j bytes)) ++ [true]

/-- The checks of R131 on a block in: start bits in one period, each line's CRC-16 and end bit. -/
def blockInGood (w : Width) (b : BlockIn) : Bool :=
  b.aligned && (List.range (widthLines w)).all fun j =>
    b.crcs[j]? == some (crc16 (lineBits w j b.bytes)) && b.ends[j]? == some true

/-- The comparison of R167: the CRC-32 of the first B − 4 bytes against the trailer, read little-endian. -/
def trailerAgrees (size : Nat) (bytes : List Byte) : Bool :=
  (crc32 (bytes.take (size - 4))).toNat == fromLittleEndian (bytes.drop (size - 4))

/-- The readback buffer's cells for the given bytes from an offset on: the non-zero ones, in order. -/
def cellsFrom : Nat → List Byte → Memory
  | _, [] => []
  | i, b :: bs => if b = 0 then cellsFrom (i + 1) bs else (i, b) :: cellsFrom (i + 1) bs

/-- One byte of the readback buffer; a byte not listed reads 0 (R131, its contents after POR). -/
def memoryRead (m : Memory) (a : Nat) : Byte := ((m.find? fun c => c.1 == a).map (·.2)).getD 0

/-- The canonical form: addresses strictly rising from a bound on, below 4,096, no zero byte listed. -/
def memoryWfFrom : Nat → Memory → Bool
  | _, [] => true
  | lo, c :: m => lo ≤ c.1 && c.1 < 4096 && c.2 != 0 && memoryWfFrom (c.1 + 1) m

/-- The readback buffer keeps its canonical form. -/
def Memory.wf (m : Memory) : Bool := memoryWfFrom 0 m

/-- A block in fills the buffer: its bytes from offset 0, zero from there to the end (R131). -/
def fillBuffer (size : Nat) (bytes : List Byte) : Memory := cellsFrom 0 ((fitBytes size bytes).take 4096)

end Sys2Proof.Machine
end

