-- ==== Sys2Proof/Machine/Records.lean ====
section
/-! DEFINITION. Record and block formats: sizes and store bytes (R24, R206, R207). -/

namespace Sys2Proof.Machine

/-- The store size of a DATA record: 16, plus 32 if MASKED, plus its length rounded up to a multiple of 8 (R24). -/
def dataSize (f : DataFields) : Nat := 16 + (if f.mask.isSome then 32 else 0) + roundUp8 f.length

/-- The size of a record in store bytes (R24). -/
def bodySize : Body → Nat
  | .gen _ => 32
  | .data f => dataSize f
  | .gap _ => 24
  | .mark _ => 16
  | .void _ => 24

/-- The size of a record. -/
def recordSize (r : Record) : Nat := bodySize r.body

/-- The source code of a MARK record and of a marker entry (R206). -/
def sourceCode : Source → Nat
  | .trigger n => n.val
  | .pin => 4
  | .command => 5

/-- A flag as bit n of a byte. -/
def bitAt (b : Bool) (n : Nat) : Nat := if b then 2 ^ n else 0

/-- The store bytes of a record (R206); bytes not named are zero, and `fitBytes` fills them up to the record's size. -/
def recordBytes (r : Record) : List Byte :=
  let seq := littleEndian 4 r.seq.toNat
  fitBytes (recordSize r) <|
    match r.body with
    | .gen f =>
      [0x01, BitVec.ofNat 8 (bitAt (f.placement == .fromOrigin) 0)] ++ littleEndian 2 f.generation.toNat ++ seq
        ++ littleEndian 2 (blockBytes f.blockSize) ++ littleEndian 2 f.regionSet.toNat ++ [f.fencedSet ++ f.triggerSet]
    | .data f =>
      [0x02, BitVec.ofNat 8 (bitAt f.mask.isSome 0 + bitAt f.coalesced 1)] ++ littleEndian 2 f.length ++ seq
        ++ littleEndian 5 f.addr.toNat ++ [f.label, 0, 0]
        ++ (f.mask.map fun m => littleEndian 32 m.toNat).getD [] ++ f.data
    | .gap f =>
      [0x03, BitVec.ofNat 8 (bitAt f.mixed 0)] ++ littleEndian 2 f.count.toNat ++ seq
        ++ littleEndian 5 f.firstAddr.toNat ++ [f.label] ++ littleEndian 5 f.endAddr.toNat ++ [0]
        ++ littleEndian 4 f.bytes.toNat
    | .mark f =>
      [0x04, BitVec.ofNat 8 (bitAt f.fenced 0 + bitAt f.final 1)] ++ littleEndian 2 f.tag.toNat ++ seq
        ++ littleEndian 4 f.epoch.toNat ++ [BitVec.ofNat 8 (sourceCode f.source)]
    | .void f =>
      [0x05, 0] ++ littleEndian 2 f.length ++ seq ++ littleEndian 4 f.voided.toNat ++ littleEndian 5 f.addr.toNat

/-- The seal cause codes (R207). -/
def causeCode : SealCause → Nat
  | .full => 1
  | .mark => 2
  | .timer => 3
  | .pause => 4
  | .final => 5

/-- The 28 header bytes of a sealed block (R59, R207). -/
def headerBytes (b : Block) : List Byte :=
  fitBytes 28 <|
    littleEndian 2 b.draft.generation.toNat ++ littleEndian 2 b.draft.lead ++ littleEndian 4 b.draft.serial.toNat
      ++ littleEndian 2 b.draft.payload.length ++ littleEndian 2 b.draft.starts ++ littleEndian 4 b.draft.firstSeq.toNat
      ++ littleEndian 4 b.epoch.toNat ++ [BitVec.ofNat 8 (causeCode b.cause)]

/-- Header and payload of a sealed block of size B, the payload filled with zero after the used bytes (R59, R65). -/
def blockFront (size : BlockSize) (b : Block) : List Byte :=
  headerBytes b ++ fitBytes (payloadSize size) b.draft.payload

/-- The B bytes of a sealed block: header, payload, and the CRC-32 trailer, stored little-endian (R59, R207). -/
def sealedBytes (size : BlockSize) (b : Block) : List Byte :=
  blockFront size b ++ littleEndian 4 (crc32 (blockFront size b)).toNat

end Sys2Proof.Machine
end

