-- ==== Sys2Proof/Machine/Ops.lean ====
section
/-! DEFINITION. The shared operations on the path of a write: forwarding, room and admission, capture, gap accounting,
markers, tracking and VOIDs (chapters 1, 2, 3 and 5). -/

namespace Sys2Proof.Machine

/-! ## Journal state as the capture path sees it (R9, R172) -/

/-- The journal is in a capturing state (R9, R43). -/
def capturing (s : State) : Bool :=
  match s.journal.state with
  | .starting | .active | .pausing | .paused => true
  | .faulted => s.journal.resume != some .draining
  | .stopped | .draining => false

/-- The journal is DRAINING, or FAULTED with resume state DRAINING, which those rules treat alike (R9, R172). -/
def drainingLike (s : State) : Bool :=
  match s.journal.state with
  | .draining => true
  | .faulted => s.journal.resume == some .draining
  | .stopped | .starting | .active | .pausing | .paused => false

/-! ## Staging occupancy and room (R46, R47, R56) -/

/-- The bytes of a staged record that are still in staging (R46). -/
def stagedBytes (e : Staged) : Nat := recordSize e.record - e.taken

/-- Occupied bytes (R46). -/
def queueBytes (q : List Staged) : Nat := (q.map stagedBytes).sum

/-- Occupied bytes of the state's Staging Queue. -/
def occupiedBytes (s : State) : Nat := queueBytes s.staging.queue

/-- Free bytes: 65,536 less occupied bytes (R46). -/
def freeBytes (s : State) : Nat := 65536 - occupiedBytes s

/-- Free slots: 1,024 less occupied records (R46). -/
def freeSlots (s : State) : Nat := 1024 - s.staging.queue.length

/-- Room for a GEN, DATA, MARK or VOID record of a size: 64 bytes and 2 slots remain after entry (R47). -/
def roomForRecord (size : Nat) (s : State) : Bool := size + 64 ≤ freeBytes s && 3 ≤ freeSlots s

/-- Room for a coalescing growth: 64 bytes remain after it, slots unchanged (R47). -/
def roomForGrowth (g : Nat) (s : State) : Bool := g + 64 ≤ freeBytes s

/-- Staging holds a closed record: any record but the open DATA record or the open GAP record, which is the tail (R45). -/
def hasClosed (s : State) : Bool :=
  match s.staging.queue with
  | [] => false
  | [_] => s.capture.openRec.isNone && s.capture.openGap.isNone
  | _ :: _ :: _ => true

/-- A rise of occupancy, by an admission or a merge (R56). While armed, above the high watermark it raises STAGING_HIGH and
disarms. While disarmed it re-arms only by a low watermark that was written while occupancy stood below it and that takes effect
at this change, occupancy still below it; otherwise falls alone re-arm. DESIGN CHOICE (log entry 35): one change of occupancy
either disarms or re-arms, by the armed state it finds, and never both. -/
def compareRise (s : State) : State :=
  let above := decide (s.words.highWatermark < occupiedBytes s)
  let below := decide (occupiedBytes s < s.words.lowWatermark)
  raiseIf (s.staging.highArmed && above) .stagingHigh
    { s with
      staging.highArmed := if s.staging.highArmed then !above else s.staging.lowWritten && below
      staging.lowWritten := false }

/-- A fall of occupancy, by a fragment copied out: while disarmed, below the low watermark it re-arms STAGING_HIGH; only a rise
raises it (R56). -/
def compareFall (s : State) : State :=
  { s with
    staging.highArmed := s.staging.highArmed || decide (occupiedBytes s < s.words.lowWatermark)
    staging.lowWritten := false }

/-! ## Claims and entry (R26, R38, R48, R49, R54) -/

/-- The held write waits for admission of its DATA or its MARK record (R48, R49). -/
def heldWaits (s : State) : Bool :=
  match s.held with
  | some h =>
    match h.hold with
    | .admitData .. | .admitMark _ => true
    | .tracking .. | .marker _ | .fence _ => false
  | none => false

/-- The arbiter would grant an at-once claim that has room: no pending VOID waits and no held write waits (R48). -/
def atOnce (s : State) : Bool := s.rtq.voids.isEmpty && !heldWaits s

/-- A record enters staging at the tail with the next sequence number; its entry closes the open record and the open GAP
(R26, R38, R45, R54). -/
def enterRecord (b : Body) (s : State) : State :=
  compareRise
    { s with
      staging.queue := s.staging.queue ++ [⟨⟨s.capture.seqCounter, b⟩, 0⟩]
      capture.seqCounter := s.capture.seqCounter + 1
      capture.openRec := none
      capture.openGap := none }

/-- The counts of a captured write (R33). -/
def countCaptured (w : WriteTxn) (s : State) : State :=
  bump .capturedBytes (writeLength w) (bump .capturedWrites 1 s)

/-- A DATA record enters, and becomes the open record if it is not MASKED and its region coalesces (R37). -/
def enterData (w : WriteTxn) (r : Fin 16) (f : DataFields) (s : State) : State :=
  let seq := s.capture.seqCounter
  let s := enterRecord (.data f) s
  countCaptured w
    { s with capture.openRec :=
        if f.mask.isNone && s.regions[r].coalesce then some ⟨seq, r, f.addr, f.length⟩ else none }

/-- Replaces the last element of a list. -/
def updateLast {α : Type} (f : α → α) : List α → List α
  | [] => []
  | [a] => [f a]
  | a :: b :: l => a :: updateLast f (b :: l)

/-! ## Forwarding (R1, R2, R18, R19) -/

/-- A tracking entry is filled in with the ordinal when its write is forwarded (R19). -/
def fillOrdinal (n : Word) (e : TrackEntry) : TrackEntry :=
  if e.ordinal.isNone then { e with ordinal := some n } else e

/-- A write leaves the downstream port, its ordinal fixed at this moment (R11, R18). -/
def forwardWrite (w : WriteTxn) (s : State) : State :=
  { s with
    rtq.tracking := s.rtq.tracking.map (fillOrdinal s.rtq.forwardCount)
    rtq.forwardCount := s.rtq.forwardCount + 1
    ports.downstream := s.ports.downstream ++ [.write w] }

/-- A read leaves the downstream port; it enters no count (R18). -/
def forwardRead (r : ReadTxn) (s : State) : State :=
  { s with ports.downstream := s.ports.downstream ++ [.read r] }

/-- The PTP takes a transaction from the upstream port (R1). -/
def noteTaken (t : Txn) (s : State) : State := { s with ports.taken := s.ports.taken ++ [t] }

/-- A block or a frame on its way out on the store link is cut: the lines are released before its end (R128, R169). -/
def noteCut (s : State) : State :=
  { s with ports.linkOut := s.ports.linkOut ++ (match s.link.phase with
      | .blockOut _ _ | .frame _ => [.cut]
      | _ => []) }

/-- The write leaves the held-write slot, if it was there, and is forwarded. -/
def finishWrite (w : WriteTxn) (s : State) : State := forwardWrite w { s with held := none }

/-- The timer of a hold: a limit of 0 has none (R10). -/
def holdTimer (limit : Nat) : Option Timer := if limit = 0 then none else some ⟨limit, 0⟩

/-- The write is placed in the held-write slot with a reason and a limit in microseconds (R10). -/
def holdWrite (w : WriteTxn) (h : Hold) (limit : Nat) (s : State) : State :=
  { s with held := some ⟨w, h, holdTimer limit⟩ }

/-! ## Gap accounting (R34, R51 to R53) -/

/-- The GAP record a first lost write creates (R34). -/
def newGap (w : WriteTxn) (label : Byte) : GapFields :=
  { label := label, mixed := false, firstAddr := w.addr, endAddr := w.addr + BitVec.ofNat 40 (writeLength w), count := 1,
    bytes := BitVec.ofNat 32 (writeLength w) }

/-- A later lost write extends the open GAP record (R34, R53). -/
def extendGap (w : WriteTxn) (label : Byte) (g : GapFields) : GapFields :=
  { g with
    mixed := g.mixed || label != g.label
    endAddr := w.addr + BitVec.ofNat 40 (writeLength w)
    count := BitVec.ofNat 16 (min (g.count.toNat + 1) 65535)
    bytes := saturate g.bytes (writeLength w) }

/-- A lost write is handed to gap accounting (R51): it creates a GAP record (R52) or extends the open one (R53). -/
def accountLost (w : WriteTxn) (label : Byte) (s : State) : State :=
  let s := bump .lostBytes (writeLength w) (bump .lostWrites 1 s)
  match s.capture.openGap with
  | none =>
    let seq := s.capture.seqCounter
    let g := newGap w label
    let s := enterRecord (.gap g) s
    bump .gapRecords 1 (raise .gapOpened { s with capture.openGap := some ⟨seq, g⟩ })
  | some o =>
    let g := extendGap w label o.fields
    { s with
      staging.queue := updateLast (fun e => { e with record := ⟨o.seq, .gap g⟩ }) s.staging.queue
      capture.openGap := some ⟨o.seq, g⟩ }

/-! ## Markers (R27, R28, R79, R94) -/

/-- The top value of the epoch counter, kept for the FINAL MARK record (R28). -/
def epochTop : Word := BitVec.allOnes 32

/-- An epoch counter advances by one and does not wrap (R27, R28, R61). -/
def nextEpoch (e : Word) : Word := if e = epochTop then e else e + 1

/-- The Marker List has no free entry (R77). -/
def listFull (s : State) : Bool := 16 ≤ s.markers.entries.length

/-- The size of a MARK record (R24). -/
def markSize : Nat := 16

/-- A MARK record is admitted and its marker entered in one happening (R27, R79). -/
def enterMark (tag : Half) (src : Source) (fenced final : Bool) (s : State) : State :=
  let seq := s.capture.seqCounter
  let epoch := s.capture.epochCounter
  let s := enterRecord (.mark ⟨epoch, tag, src, fenced, final⟩) s
  { s with
    capture.epochCounter := nextEpoch epoch
    markers.entries := s.markers.entries ++ [⟨epoch, tag, src, fenced, final, seq, none, .recorded⟩] }

/-- A marker request counted as lost (R94). -/
def loseMark (s : State) : State := raise .markLost (bump .marksLost 1 s)

/-- The fence limit in microseconds (R10). -/
def fenceMicros (s : State) : Nat := s.words.fenceLimit * 1000

/-- The marker of a trigger write was entered: the write passes to FENCE if the trigger is fenced, else it is forwarded
(R12, R15, R91). -/
def afterMark (w : WriteTxn) (trig : Fin 4) (epoch : Word) (s : State) : State :=
  if s.triggers[trig].fenced then holdWrite w (.fence epoch) (fenceMicros s) s else finishWrite w s

/-- The MARK record of a trigger write is admitted (R15, R79). -/
def admitTriggerMark (w : WriteTxn) (trig : Fin 4) (s : State) : State :=
  afterMark w trig s.capture.epochCounter
    (enterMark (writeTag w) (.trigger trig) s.triggers[trig].fenced false s)

/-- The limit of a marker wait in microseconds: the stall limit of the write's region, else the fence limit (R15). -/
def markerLimit (region : Option (Fin 16)) (s : State) : Nat :=
  match region with
  | some r => s.regions[r].stallLimit.toNat
  | none => fenceMicros s

/-- A trigger write begins its marker wait (R12, R15, R28, R80). -/
def beginMarkerWait (w : WriteTxn) (region : Option (Fin 16)) (trig : Fin 4) (s : State) : State :=
  if s.capture.epochCounter = epochTop then finishWrite w (loseMark s)
  else if listFull s then holdWrite w (.marker trig) (markerLimit region s) s
  else if s.rtq.voids.isEmpty && roomForRecord markSize s then admitTriggerMark w trig s
  else holdWrite w (.admitMark trig) (markerLimit region s) s

/-! ## Tracking (R11, R14, R19) -/

/-- A captured write has its outcome: a trigger write goes to its marker wait, another write is forwarded (R11, R12). -/
def afterData (w : WriteTxn) (region : Fin 16) (trig : Option (Fin 4)) (s : State) : State :=
  match trig with
  | none => finishWrite w s
  | some t => beginMarkerWait w (some region) t s

/-- A tracking entry is taken for a write, its ordinal to be filled in when the write is forwarded (R19). -/
def takeEntry (w : WriteTxn) (seq : Word) (ended : Bool) (s : State) : State :=
  { s with rtq.tracking := s.rtq.tracking ++ [⟨none, seq, w.addr, writeLength w, ended⟩] }

/-- Step 2 of R11: the write takes a tracking entry, or is held for TRACKING while all 32 are in use. -/
def trackWrite (w : WriteTxn) (seq : Word) (region : Fin 16) (trig : Option (Fin 4)) (s : State) : State :=
  if s.rtq.tracking.length < 32 then afterData w region trig (takeEntry w seq false s)
  else holdWrite w (.tracking seq region trig false) 0 s

/-! ## Capture (R30 to R42, R48, R50, R51) -/

/-- The growth of the open record by a merge, in store bytes (R40). -/
def mergeGrowth (o : OpenRec) (w : WriteTxn) : Nat := roundUp8 (o.length + writeLength w) - roundUp8 o.length

/-- The five conditions of R39 for merging a write into the open record. -/
def canMerge (o : OpenRec) (w : WriteTxn) (r : Fin 16) (s : State) : Bool :=
  decide (o.region = r) && w.addr.toNat == o.addr.toNat + o.length && fullyStrobed w
    && decide (o.length + writeLength w ≤ 256) && atOnce s && roomForGrowth (mergeGrowth o w) s

/-- The open DATA record with a write merged into it (R41). -/
def mergeFields (w : WriteTxn) (f : DataFields) : DataFields :=
  { f with length := f.length + writeLength w, coalesced := true, data := f.data ++ w.lanes.map laneByte }

/-- A merge changes the tail record in place (R41). -/
def mergeBody (w : WriteTxn) : Body → Body
  | .data f => .data (mergeFields w f)
  | b => b

/-- A write is merged into the open record (R41); occupancy rises by the growth, which may be 0 (R40, R56). -/
def mergeWrite (o : OpenRec) (w : WriteTxn) (s : State) : State :=
  let s1 := { s with
    staging.queue := updateLast (fun e => { e with record := ⟨e.record.seq, mergeBody w e.record.body⟩ }) s.staging.queue
    capture.openRec := some { o with length := o.length + writeLength w } }
  countCaptured w (if mergeGrowth o w = 0 then s1 else compareRise s1)

/-- The write's own DATA record is offered at once: it enters; or the write is held in a STALL region; or it is lost in a
SHED region (R32, R48, R50, R51). -/
def offerData (w : WriteTxn) (r : Fin 16) (trig : Option (Fin 4)) (s : State) : State :=
  let region := s.regions[r]
  let f := formData w region
  if atOnce s && roomForRecord (dataSize f) s then
    trackWrite w s.capture.seqCounter r trig (enterData w r f s)
  else
    match region.policy with
    | .stall => holdWrite w (.admitData r trig f) region.stallLimit.toNat s
    | .shed => afterData w r trig (accountLost w region.label s)

/-- The steps of a captured write as it is taken (R11, R39). -/
def captureWrite (w : WriteTxn) (r : Fin 16) (trig : Option (Fin 4)) (s : State) : State :=
  match s.capture.openRec with
  | some o =>
    if canMerge o w r s then trackWrite w o.seq r trig (mergeWrite o w s) else offerData w r trig s
  | none => offerData w r trig s

/-- The PTP takes and classifies a write while PORn is high and the slot is empty (R6, R9). -/
def classifyWrite (w : WriteTxn) (s : State) : State :=
  if crosses w then forwardWrite w (bump .crossing 1 s)
  else if capturing s then
    match winningRegion s.regions w, matchingTrigger s.triggers w with
    | some r, trig => captureWrite w r trig s
    | none, some t => beginMarkerWait w none t s
    | none, none => forwardWrite w s
  else forwardWrite w s

/-! ## Responses and VOIDs (R20 to R23) -/

/-- A late ERROR, or a VOID lost with the slots full (R21, R22). -/
def lateVoid (s : State) : State := raise .voidLate (bump .voidsLate 1 s)

/-- An ERROR response consumed a tracking entry: a pending VOID, or late (R21, R22). -/
def errorResponse (e : TrackEntry) (s : State) : State :=
  if !e.ended && (capturing s || (drainingLike s && s.staging.finalMark != .entered)) then
    if s.rtq.voids.length < 4 then { s with rtq.voids := s.rtq.voids ++ [⟨e.seq, e.addr, e.length⟩] } else lateVoid s
  else lateVoid s

/-- A freed tracking entry goes to the write held for TRACKING, if one is waiting (R14, R17). -/
def releaseTracking (s : State) : State :=
  match s.held with
  | some h =>
    match h.hold with
    | .tracking seq region trig stopped =>
      if stopped then
        let s := takeEntry h.write seq true s
        finishWrite h.write (if trig.isSome then loseMark s else s)
      else trackWrite h.write seq region trig { s with held := none }
    | .admitData .. | .marker _ | .admitMark _ | .fence _ => s
  | none => s

/-- A write response arrives: the oldest tracking entry is consumed if it is the write's own (R20). -/
def matchResponse (answer : WriteAnswer) (s : State) : State :=
  match s.rtq.tracking with
  | e :: rest =>
    if e.ordinal = some s.rtq.answerCount then
      let s := { s with rtq.tracking := rest }
      releaseTracking (match answer with
        | .okay => s
        | .error => errorResponse e s)
    else s
  | [] => s

/-- The answer count advances and the response is returned upstream (R2, R18). -/
def returnWriteResponse (id : Byte) (answer : WriteAnswer) (s : State) : State :=
  { s with
    rtq.answerCount := s.rtq.answerCount + 1
    ports.upstream := s.ports.upstream ++ [.write id answer] }

/-- Every tracking entry still outstanding gets its ended flag (R23). -/
def endTracking (s : State) : State :=
  { s with rtq.tracking := s.rtq.tracking.map fun e => { e with ended := true } }

/-! ## What STOP, HALT and SOFT_RESET do to the held write (R17) -/

/-- STOP settles the held write: ADMISSION is lost into a GAP record, a marker wait is lost, TRACKING and FENCE are kept
(R17). -/
def settleHeldForStop (s : State) : State :=
  match s.held with
  | none => s
  | some h =>
    match h.hold with
    | .admitData r _ _ => finishWrite h.write (accountLost h.write s.regions[r].label s)
    | .tracking seq region trig _ => { s with held := some { h with hold := .tracking seq region trig true } }
    | .marker _ | .admitMark _ => finishWrite h.write (loseMark s)
    | .fence _ => s

/-- HALT, SOFT_RESET and PORn falling forward the held write, with no event (R3, R17). -/
def forwardHeld (s : State) : State :=
  match s.held with
  | none => s
  | some h => finishWrite h.write s

end Sys2Proof.Machine
end

