-- ==== Sys2Proof/Machine/MemoryPort.lean ====
section
/-! DEFINITION. The meanings of the memory-port commands: PORn, transactions, responses, and the limits of a held write
(chapter 1). -/

namespace Sys2Proof.Machine

/-- What a meaning answers. -/
abbrev Result := Host.Outcome State Fault Refusal

/-- A happening that only arises while PORn is high: while it is low the state is as POR leaves it, and nothing changes
(log entry 3). -/
def whenLive (f : State → State) (s : State) : Result := .next (if s.pornLow then s else f s)

/-- The state POR leaves (R3, R4, R7, R18, R25, R58, R61, R75, R77, R96, R101, R114, R142, R169, R171, R190, R199), with the
two write counts, the record of the ports and the queue of commands kept. -/
def porState (s : State) : State :=
  { State.reset with
    pornLow := true
    rtq := { forwardCount := s.rtq.forwardCount, answerCount := s.rtq.answerCount, tracking := [], voids := [] }
    ports := s.ports
    pending := s.pending }

/-- PORN_FALL: any held write is forwarded, then every block is in its POR state and the ports are joined (R3); what the link
was sending is cut (R169). DESIGN CHOICE (log entry 41): no RESET_STORE is sent in any link state, as R128, R142 and R169 have it;
R157 says that POR taken in FAULT sends one, and R75 that POR with the link not OFF does. -/
def execPornFall (s : State) : Result := .next (if s.pornLow then s else porState (noteCut (forwardHeld s)))

/-- PORN_RISE: the PTP classifies from the next transaction on; a management frame in progress is ignored until CSn rises
(R3, R81, R202). -/
def execPornRise (csnLow : Bool) (s : State) : Result :=
  .next (if s.pornLow then { s with pornLow := false, mgmtIgnore := csnLow } else s)

/-- UPSTREAM_WRITE_TAKEN: passed straight through while PORn is low (R3); not taken while the slot is occupied (R1);
otherwise classified (R6, R9, R11, R12). -/
def execUpstreamWriteTaken (w : WriteTxn) (s : State) : Result :=
  if !lengthInRange (writeLength w) then .fault .transferLength
  else if s.pornLow then .next (forwardWrite w (noteTaken (.write w) s))
  else if s.held.isSome then .next s
  else .next (classifyWrite w (noteTaken (.write w) s))

/-- UPSTREAM_READ_TAKEN: forwarded unchanged and in order; not taken while the slot is occupied (R1, R2). -/
def execUpstreamReadTaken (r : ReadTxn) (s : State) : Result :=
  if !lengthInRange r.len then .fault .transferLength
  else if s.held.isSome then .next s
  else .next (forwardRead r (noteTaken (.read r) s))

/-- DOWNSTREAM_WRITE_RESPONSE: matched to the oldest tracking entry (R20, R21), counted (R18) and returned upstream
unchanged (R2). While PORn is low it is only counted and returned (R3). -/
def execDownstreamWriteResponse (id : Byte) (answer : WriteAnswer) (s : State) : Result :=
  .next (returnWriteResponse id answer (if s.pornLow then s else matchResponse answer s))

/-- DOWNSTREAM_READ_RESPONSE: returned upstream unchanged, without inspection (R2). -/
def execDownstreamReadResponse (id : Byte) (data : List Byte) (status : Nat) (s : State) : Result :=
  .next { s with ports.upstream := s.ports.upstream ++ [.read id data status] }

/-- The stall limit of a write held for ADMISSION of its DATA record expires (R13, R50, R51). -/
def stallExpires (s : State) : State :=
  match s.held with
  | some ⟨w, .admitData r trig _, some _⟩ =>
    afterData w r trig (raise .stallTimeout (accountLost w s.regions[r].label { s with held := none }))
  | _ => s

/-- STALL_TIMEOUT (R13). -/
def execStallTimeout (s : State) : Result := whenLive stallExpires s

/-- The limit of a marker wait expires (R15, R94). -/
def markerWaitExpires (s : State) : State :=
  match s.held with
  | some ⟨w, .marker _, some _⟩ => finishWrite w (loseMark s)
  | some ⟨w, .admitMark _, some _⟩ => finishWrite w (loseMark s)
  | _ => s

/-- MARKER_WAIT_EXPIRY (R15). -/
def execMarkerWaitExpiry (s : State) : Result := whenLive markerWaitExpires s

/-- The fence limit expires: the write is forwarded, the marker stays in the list (R16, R91). -/
def fenceExpires (s : State) : State :=
  match s.held with
  | some ⟨w, .fence _, some _⟩ => finishWrite w (raise .fenceTimeout s)
  | _ => s

/-- FENCE_LIMIT_EXPIRY (R91). -/
def execFenceLimitExpiry (s : State) : Result := whenLive fenceExpires s

end Sys2Proof.Machine
end

