-- ==== Sys2Proof/Machine/Arbiter.lean ====
section
/-! DEFINITION. The meanings of the admission commands and of MARKN_REQUEST (R22, R49, R79, R82, R84). -/

namespace Sys2Proof.Machine

/-- The size of a VOID record (R24). -/
def voidSize : Nat := 24

/-- The arbiter admits the oldest pending VOID when its room is there (R22, R49). -/
def admitVoid (s : State) : State :=
  match s.rtq.voids with
  | [] => s
  | v :: rest =>
    if roomForRecord voidSize s then
      raise .voidRecorded (bump .voids 1 (enterRecord (.void v) { s with rtq.voids := rest }))
    else s

/-- ADMIT_PENDING_VOID (R22). -/
def execAdmitPendingVoid (s : State) : Result := whenLive admitVoid s

/-- The arbiter admits the DATA record of a write held for ADMISSION, behind the pending VOIDs, when its room is there (R13,
R49). -/
def admitData (s : State) : State :=
  match s.held with
  | some ⟨w, .admitData r trig f, _⟩ =>
    if s.rtq.voids.isEmpty && roomForRecord (dataSize f) s then
      trackWrite w s.capture.seqCounter r trig (enterData w r f { s with held := none })
    else s
  | _ => s

/-- ADMIT_HELD_DATA (R13). -/
def execAdmitHeldData (s : State) : Result := whenLive admitData s

/-- The arbiter admits the MARK record of a write in its marker wait, behind the pending VOIDs, when its room and a list
entry are there (R15, R49, R79). -/
def admitMark (s : State) : State :=
  match s.held with
  | some ⟨w, .admitMark trig, _⟩ =>
    if s.rtq.voids.isEmpty && roomForRecord markSize s && !listFull s then admitTriggerMark w trig s else s
  | _ => s

/-- ADMIT_HELD_MARK (R79). -/
def execAdmitHeldMark (s : State) : Result := whenLive admitMark s

/-- The arbiter admits the FINAL MARK record, behind the pending VOIDs, when its room and a list entry are there (R49,
R84). -/
def admitFinal (s : State) : State :=
  if s.staging.finalMark = .waiting && !listFull s && s.rtq.voids.isEmpty && !heldWaits s && roomForRecord markSize s then
    enterMark 0 .command false true { s with staging.finalMark := .entered }
  else s

/-- ADMIT_FINAL_MARK (R84). -/
def execAdmitFinalMark (s : State) : Result := whenLive admitFinal s

/-- An at-once MARK claim is granted (R47, R48). -/
def markGranted (s : State) : Bool := atOnce s && roomForRecord markSize s

/-- A marker request from MARKn is answered by R82. -/
def pinRequest (s : State) : State :=
  if !capturing s then s
  else if s.capture.epochCounter = epochTop || listFull s || !markGranted s then loseMark s
  else enterMark 0 .pin false false s

/-- MARKN_REQUEST (R82). -/
def execMarknRequest (s : State) : Result := whenLive pinRequest s

end Sys2Proof.Machine
end

