-- ==== Sys2Proof/Config.lean ====
section
/-! DEFINITION. The values the spec leaves open: opaque constants without a body, so that no proof can lean on one. -/

namespace Sys2Proof

/-- What a divisor word holds after a value above 255 is written to it. R117 says "each 0 to 255" and R204 "taken as the
owning rule gives", and no rule gives it (log entry 12). -/
opaque Config.divisorTaken : Word → Byte

/-- Whether check 3 of R139 passes while the generation's store identity is still empty. R139 compares the serials and says
nothing of an empty identity (log entry 13). -/
opaque Config.emptyIdentityAgrees : Bool

/-- The revision word of the identification group (R204: "constant", value not given; log entry 14). -/
opaque Config.revision : Word

/-- The window version word of the identification group (R204: "constant", value not given; log entry 14). -/
opaque Config.windowVersion : Word

/-- The state of a slot as the window shows it (R76). -/
inductive SlotState where
  | free
  | assembling
  | sealed
  | inFlight
  deriving DecidableEq, Repr

/-- What is shown of a slot: its state and, unless it is FREE, its block serial (R76). -/
structure SlotView where
  state  : SlotState
  serial : Option Word
  deriving DecidableEq, Repr

/-- All that the words 0x0060 to 0x006F and 0x0072 to 0x007F show: the Framer and window status of R76, less BLOCKS_SEALED, which
is a counter's word, and the Marker List status of R97, less the entries, the durable pair and MARKS_LOST, which have their
own words. -/
structure StatusView where
  slots         : List SlotView
  serialCounter : Word
  usedBytes     : Nat
  due           : Machine.DueSeal
  waiting       : Bool
  entryCount    : Nat
  commitOwed    : Bool
  commitEpoch   : Option Word
  deriving DecidableEq, Repr

/-- How the words 0x0060 to 0x006F and 0x0072 to 0x007F hold the status they show. R76 and R97 give what is shown and R204 the
addresses; no rule gives the bit positions (log entry 15). -/
opaque Config.statusLayout : StatusView → Half → Word

end Sys2Proof
end

