-- ==== Sys2Proof/Machine/FramerOps.lean ====
section
/-! DEFINITION. The Block Framer and the Block Window: opening, copying, sealing, and the slots (chapter 4). -/

namespace Sys2Proof.Machine

/-! ## Slots (R70, R71) -/

/-- The slot is FREE. -/
def slotFree : Slot → Bool
  | .free => true
  | .assembling _ | .sealed _ | .inFlight _ => false

/-- The block of an ASSEMBLING slot. -/
def slotDraft : Slot → Option Draft
  | .assembling d => some d
  | .free | .sealed _ | .inFlight _ => none

/-- The block of a SEALED slot. -/
def slotSealed : Slot → Option Block
  | .sealed b => some b
  | .free | .assembling _ | .inFlight _ => none

/-- The block of an IN_FLIGHT slot. -/
def slotInFlight : Slot → Option Block
  | .inFlight b => some b
  | .free | .assembling _ | .sealed _ => none

/-- The assembling slot, with its block so far (R61). -/
def assembling (s : State) : Option (Fin 8 × Draft) :=
  (List.finRange 8).findSome? fun i => (slotDraft s.window[i]).map (i, ·)

/-- The lowest-numbered FREE slot (R62). -/
def lowestFree (s : State) : Option (Fin 8) := (List.finRange 8).find? fun i => slotFree s.window[i]

/-- The IN_FLIGHT slot. -/
def inFlight (s : State) : Option (Fin 8 × Block) :=
  (List.finRange 8).findSome? fun i => (slotInFlight s.window[i]).map (i, ·)

/-- The window holds a SEALED block. -/
def hasSealed (s : State) : Bool := s.window.toList.any fun x => (slotSealed x).isSome

/-- How long ago a block was opened, by serial: the blocks of the window hold the serials just below the serial counter
(R71), so the oldest is farthest from it, across a wrap of the serials too. -/
def blockAge (s : State) (b : Block) : Nat := (s.framer.serialCounter - b.draft.serial).toNat

/-- The older of two candidates. -/
def olderBlock (s : State) (best : Option (Fin 8 × Block)) (i : Fin 8) : Option (Fin 8 × Block) :=
  match slotSealed s.window[i], best with
  | none, _ => best
  | some b, none => some (i, b)
  | some b, some c => if blockAge s c.2 < blockAge s b then some (i, b) else best

/-- The oldest SEALED block of the window (R71, R147). -/
def oldestSealed (s : State) : Option (Fin 8 × Block) := (List.finRange 8).foldl (olderBlock s) none

/-- A slot of the window is replaced. -/
def setSlot (i : Fin 8) (x : Slot) (s : State) : State := { s with window := s.window.set i x }

/-- The IN_FLIGHT block, if there is one, returns to SEALED (R72). -/
def returnInFlight (s : State) : State :=
  { s with
    window := match inFlight s with
      | some (i, b) => s.window.set i (.sealed b)
      | none => s.window }

/-! ## Opening and sealing (R62, R65, R67) -/

/-- The Framer opens a block in a slot: the serial counter's value and the current generation, and the seal timer starts if
its word is not 0 (R62, R68). -/
def openBlock (i : Fin 8) (s : State) : State :=
  setSlot i (.assembling ⟨s.framer.generation, s.framer.serialCounter, 0, 0, 0, []⟩)
    { s with
      framer.serialCounter := s.framer.serialCounter + 1
      framer.sealTimer := holdTimer s.words.sealTimer.toNat }

/-- The assembling block is sealed with a cause (R65). -/
def sealBlock (i : Fin 8) (d : Draft) (cause : SealCause) (s : State) : State :=
  bump .blocksSealed 1
    (setSlot i (.sealed { draft := d, epoch := s.framer.framingEpoch, cause := cause })
      { s with framer.sealTimer := none, framer.due := .none })

/-- The marker of a MARK record, found by its record's sequence number, becomes SEALED with the block's serial (R85). -/
def sealMarker (recSeq serial : Word) (m : Marker) : Marker :=
  if m.recSeq = recSeq && m.state == .recorded then { m with state := .sealed, serial := some serial } else m

/-- The last byte of a MARK record was placed: the framing epoch advances and the marker becomes SEALED (R61, R67, R85). DESIGN
CHOICE (log entry 39): it advances at the FINAL MARK record too, as the text of R61 and R67 says of any MARK record, though the
table of R61 has it kept at a FINAL seal. -/
def placeMark (recSeq serial : Word) (s : State) : State :=
  { s with
    framer.framingEpoch := nextEpoch s.framer.framingEpoch
    markers.entries := s.markers.entries.map (sealMarker recSeq serial) }

/-- The payload size of the current generation (R59). -/
def payloadRoom (d : Draft) (s : State) : Nat := payloadSize s.framer.blockSize - d.payload.length

/-- The block with one more fragment: n bytes of the head record (R60, R62). -/
def addFragment (e : Staged) (n : Nat) (d : Draft) : Draft :=
  { d with
    lead := if e.taken = 0 then d.lead else d.lead + n
    starts := if e.taken = 0 then d.starts + 1 else d.starts
    firstSeq := if e.taken = 0 && d.starts == 0 then e.record.seq else d.firstSeq
    payload := d.payload ++ ((recordBytes e.record).drop e.taken).take n }

/-- Whether a record is a MARK record, and if so whether it is FINAL. -/
def markFinal : Body → Option Bool
  | .mark f => some f.final
  | .gen _ | .data _ | .gap _ | .void _ => none

/-- A due TIMER or PAUSE seal is served: the open DATA or GAP record is taken if the block has room for all of it, and the
block is sealed (R63, R65, R68, R69). -/
def serveDue (i : Fin 8) (d : Draft) (s : State) : State :=
  let cause := if s.framer.due = .pause then SealCause.pause else .timer
  match s.staging.queue with
  | [e] =>
    if recordSize e.record ≤ payloadRoom d s then
      let d' := addFragment e (recordSize e.record) d
      let s := compareFall
        { s with staging.queue := [], capture.openRec := none, capture.openGap := none }
      sealBlock i d' (if d'.payload.length = payloadSize s.framer.blockSize then .full else cause) s
    else sealBlock i d cause s
  | _ => sealBlock i d cause s

/-- A due seal is served if staging holds no closed record; otherwise it stays due (R68). -/
def serveIfDue (s : State) : State :=
  match assembling s with
  | some (i, d) => if s.framer.due ≠ .none && !hasClosed s then serveDue i d s else s
  | none => s

/-- The next fragment of the closed head record is copied into the assembling block (R46, R60, R62), which seals MARK or
FINAL on the last byte of a MARK record (R67), FULL when its payload is full (R66), or serves a due seal (R68). -/
def copyFragment (i : Fin 8) (d : Draft) (s : State) : State :=
  match s.staging.queue with
  | [] => s
  | e :: rest =>
    let n := min (stagedBytes e) (payloadRoom d s)
    let d' := addFragment e n d
    let done : Bool := n == stagedBytes e
    let s := compareFall
      { s with staging.queue := if done then rest else { e with taken := e.taken + n } :: rest }
    match done, markFinal e.record.body with
    | true, some final =>
      sealBlock i d' (if final then .final else .mark) (placeMark e.record.seq d.serial s)
    | _, _ =>
      if d'.payload.length = payloadSize s.framer.blockSize then sealBlock i d' .full s
      else serveIfDue (setSlot i (.assembling d') s)

/-- The Framer waits for a FREE slot (R64). -/
def framerWaiting (s : State) : Bool := (assembling s).isNone && hasClosed s && (lowestFree s).isNone

/-- One copy of the Framer: into the assembling slot, or into the lowest FREE slot, which it opens; it waits when there is
none, and takes nothing while staging holds no closed record (R62, R64). -/
def framerStep (s : State) : State :=
  if hasClosed s then
    match assembling s with
    | some (i, d) => copyFragment i d s
    | none =>
      match lowestFree s with
      | some i =>
        let s := openBlock i s
        match assembling s with
        | some (j, d) => copyFragment j d s
        | none => s
      | none => s
  else s

/-- The seal timer runs out: a TIMER seal becomes due and is served at once if staging holds no closed record (R68). A
PAUSE seal already due stays, the one seal serving both (R69). -/
def sealTimerRunsOut (s : State) : State :=
  serveIfDue { s with framer.sealTimer := none, framer.due := if s.framer.due = .pause then .pause else .timer }

/-- Journal Control asks for a PAUSE seal: due if a block is assembling, else served with no seal (R69). -/
def requestPauseSeal (s : State) : State :=
  match assembling s with
  | some _ => serveIfDue { s with framer.due := .pause }
  | none => s

end Sys2Proof.Machine
end

