-- ==== Sys2Proof/Machine/SpaceOps.lean ====
section
/-! DEFINITION. The Space Tracker: the chain, positions, counts, and the comparisons of free space (chapter 6). -/

namespace Sys2Proof.Machine

/-- The chain: entries 0, 1, 2 … up to and including the first marked last (R99); none if no entry is marked last. -/
def chainFrom : List Extent → Option (List Extent)
  | [] => none
  | e :: es => if e.last then some [e] else (chainFrom es).map (e :: ·)

/-- The capacity of a chain: the sum of its counts, in blocks (R99). -/
def chainCapacity (ch : List Extent) : Nat := (ch.map fun e => e.count.toNat).sum

/-- An entry passes the checks of R100 that concern it alone. -/
def extentGood (e : Extent) : Bool :=
  e.valid && e.count.toNat != 0 && decide (e.start.toNat + e.count.toNat - 1 ≤ 4294967295)

/-- The block ranges of two entries share no store block address (R100). -/
def extentsDisjoint (a b : Extent) : Bool :=
  decide (a.start.toNat + a.count.toNat ≤ b.start.toNat) || decide (b.start.toNat + b.count.toNat ≤ a.start.toNat)

/-- No two entries of a chain overlap (R100). -/
def pairwiseDisjoint : List Extent → Bool
  | [] => true
  | e :: es => es.all (extentsDisjoint e) && pairwiseDisjoint es

/-- The chain passes every check of R100. -/
def chainGood (ch : List Extent) : Bool := ch.all extentGood && pairwiseDisjoint ch

/-- The capacity kept by the Space Tracker (R101). -/
def capacity (s : State) : Nat := chainCapacity s.space.chain

/-- Free: the capacity less used (R101). -/
def freeBlocks (s : State) : Nat := capacity s - s.space.used

/-- The count of a position's entry; 0 for an entry outside the chain. -/
def entryCount (ch : List Extent) (p : Pos) : Nat := (ch[p.entry]?.map fun e => e.count.toNat).getD 0

/-- A position lies on the chain (R101). -/
def onChain (ch : List Extent) (p : Pos) : Bool := decide (p.offset < entryCount ch p)

/-- A position advances by one block (R102). -/
def advanceOne (ch : List Extent) (p : Pos) : Pos :=
  if p.offset + 1 < entryCount ch p then ⟨p.entry, p.offset + 1⟩
  else if p.entry + 1 < ch.length then ⟨p.entry + 1, 0⟩
  else ⟨0, 0⟩

/-- The number of blocks of the chain before a position. -/
def linearOf (ch : List Extent) (p : Pos) : Nat := chainCapacity (ch.take p.entry) + p.offset

/-- The position that has n blocks of the chain before it; `i` numbers the first entry of the list. -/
def positionFrom (i : Nat) : List Extent → Nat → Pos
  | [], _ => ⟨0, 0⟩
  | e :: es, n => if n < e.count.toNat then ⟨i, n⟩ else positionFrom (i + 1) es (n - e.count.toNat)

/-- A position advances by n blocks (R102), computed in one go around the ring. -/
def advance (ch : List Extent) (n : Nat) (p : Pos) : Pos :=
  positionFrom 0 ch ((linearOf ch p + n) % chainCapacity ch)

/-- The store block address of a position (R102). -/
def storeAddress (ch : List Extent) (p : Pos) : Word :=
  ((ch[p.entry]?.map (·.start)).getD 0) + BitVec.ofNat 32 p.offset

/-- The blocks left in the head's extent (R102). -/
def blocksLeft (s : State) : Nat := entryCount s.space.chain s.space.head - s.space.head.offset

/-- The run limit: the smaller of the blocks left in the head's extent and free (R108). -/
def runLimit (s : State) : Nat := min (blocksLeft s) (freeBlocks s)

/-- The store block address of the head. -/
def headAddress (s : State) : Word := storeAddress s.space.chain s.space.head

/-- The blocks from one position to another along the ring, modulo its capacity (R103). -/
def ringDistance (ch : List Extent) (p q : Pos) : Nat :=
  (linearOf ch q + chainCapacity ch - linearOf ch p) % chainCapacity ch

/-- The checks of R103 on the positions and counts that CONTINUE keeps. -/
def keptPositionsGood (ch : List Extent) (sp : Space) : Bool :=
  onChain ch sp.head && onChain ch sp.boundary && onChain ch sp.tail && decide (sp.used ≤ chainCapacity ch)
    && ringDistance ch sp.tail sp.head == sp.used % chainCapacity ch
    && ringDistance ch sp.tail sp.boundary == sp.durableUsed % chainCapacity ch

/-- Free is compared with the low-space threshold (R106). -/
def compareLow (s : State) : State :=
  let low := decide (freeBlocks s ≤ s.words.lowSpace.toNat)
  raiseIf (low && s.space.lowArmed) .storeLow { s with space.lowArmed := !low }

/-- The store is full (R107). -/
def storeFull (s : State) : Bool := s.space.used == capacity s

/-- A commit is owed for space: the store is full and used exceeds durable-used (R110). -/
def commitOwedSpace (s : State) : Bool := storeFull s && decide (s.space.durableUsed < s.space.used)

/-- A commit is owed for markers: an entry is ACCEPTED (R87). -/
def commitOwedMarkers (s : State) : Bool := s.markers.entries.any fun m => m.state == .accepted

/-- A commit is owed (R87, R110). -/
def commitOwed (s : State) : Bool := commitOwedMarkers s || commitOwedSpace s

/-- The head leaves its entry as it advances (R104). -/
def headLeavesEntry (s : State) : Bool := decide (entryCount s.space.chain s.space.head ≤ s.space.head.offset + 1)

/-- The notify field of the head's entry. -/
def headNotifies (s : State) : Bool := (s.space.chain[s.space.head.entry]?.map (·.notify)).getD false

/-- An ACCEPT advances the head by one block, with the results of R104, R106 and R107. -/
def advanceHead (s : State) : State :=
  let s1 := raiseIf (headLeavesEntry s && headNotifies s) .extentNotify s
  let s2 := compareLow (bump .blocksAccepted 1
    { s1 with space.head := advanceOne s.space.chain s.space.head, space.used := s.space.used + 1 })
  raiseIf (storeFull s2) .storeFull s2

/-- A position word: offset in bits 23 to 0, entry in bits 28 to 24 (R205). -/
def positionWord (p : Pos) : Word := BitVec.ofNat 32 (p.offset % 16777216 + p.entry % 32 * 16777216)

end Sys2Proof.Machine
end

