-- ==== Sys2Proof/Machine/JournalOps.lean ====
section
/-! DEFINITION. Journal Control: the command slot and its records, and the signals of the other blocks (chapter 9). -/

namespace Sys2Proof.Machine

/-- The command codes (R204). -/
def codeStart : BitVec 4 := 1
/-- STOP (R204). -/
def codeStop : BitVec 4 := 2
/-- HALT (R204). -/
def codeHalt : BitVec 4 := 3
/-- PAUSE (R204). -/
def codePause : BitVec 4 := 4
/-- RESUME (R204). -/
def codeResume : BitVec 4 := 5
/-- MARK (R204). -/
def codeMark : BitVec 4 := 6
/-- RECLAIM (R204). -/
def codeReclaim : BitVec 4 := 7
/-- READBACK (R204). -/
def codeReadback : BitVec 4 := 8
/-- RECOVER (R204). -/
def codeRecover : BitVec 4 := 9
/-- SOFT_RESET (R204). -/
def codeSoftReset : BitVec 4 := 10

/-- A command is RUNNING (R174). -/
def running (s : State) : Bool := s.journal.slot.status == .running

/-- The command with a code is RUNNING. -/
def runningCode (code : BitVec 4) (s : State) : Bool := running s && s.journal.slot.code == code

/-- A write to the command word advances the command number (R171, R174). -/
def nextNumber (s : State) : State := { s with journal.number := s.journal.number + 1 }

/-- A record of the command with the present number. -/
def commandRecord (code : BitVec 4) (status : CmdStatus) (reason : Option Reason) (r0 r1 : Word) (s : State) : CmdRecord :=
  { number := s.journal.number, code := code, status := status, reason := reason, r0 := r0, r1 := r1 }

/-- A command becomes RUNNING and keeps the slot; nothing is raised (R175). -/
def runCommand (code : BitVec 4) (s : State) : State :=
  { s with journal.slot := commandRecord code .running none 0 0 s }

/-- A command is answered at once: in the side record while another command is RUNNING, else in the slot record;
COMMAND_DONE is raised (R175). -/
def answerCommand (code : BitVec 4) (status : CmdStatus) (reason : Option Reason) (r0 r1 : Word) (s : State) : State :=
  let r := commandRecord code status reason r0 r1 s
  raise .commandDone
    { s with
      journal.side := if running s then some r else s.journal.side
      journal.slot := if running s then s.journal.slot else r }

/-- A command is refused with a reason. -/
def refuse (code : BitVec 4) (reason : Reason) (s : State) : State := answerCommand code .refused (some reason) 0 0 s

/-- A command completes at once with DONE and its result values. -/
def complete (code : BitVec 4) (r0 r1 : Word) (s : State) : State := answerCommand code .done none r0 r1 s

/-- The RUNNING command ends with a status, a reason and result values, and COMMAND_DONE is raised (R175); without one,
nothing happens. -/
def endRunning (status : CmdStatus) (reason : Option Reason) (r0 r1 : Word) (s : State) : State :=
  raiseIf (running s) .commandDone
    { s with journal.slot :=
        if running s then { s.journal.slot with status := status, reason := reason, r0 := r0, r1 := r1 }
        else s.journal.slot }

/-- The RUNNING command is overtaken: it is written to the overtaken record as ABANDONED (R175). -/
def overtake (s : State) : State :=
  { s with journal.overtaken :=
      if running s then some { s.journal.slot with status := .abandoned, reason := none, r0 := 0, r1 := 0 }
      else s.journal.overtaken }

/-- Cases 2 to 5 of R174: the command number advances; a RUNNING command that does not admit the new one refuses it BUSY;
otherwise the command's own rule answers. -/
def takeCommand (code : BitVec 4) (admitted : Bool) (own : State → State) (s : State) : State :=
  let s := nextNumber s
  if running s && !admitted then refuse code .busy s else own s

/-- The state a resume state names (R185). -/
def resumeTarget : Resume → JournalState
  | .active => .active
  | .paused => .paused
  | .draining => .draining

/-- The link is signalled quiescent: PAUSING becomes PAUSED with PAUSE DONE (R178); a RECOVER RUNNING in PAUSED becomes
DONE (R185). -/
def quiescent (s : State) : State :=
  match s.journal.state with
  | .pausing => endRunning .done none 0 0 { s with journal.state := .paused }
  | .paused => if runningCode codeRecover s then endRunning .done none 0 0 s else s
  | .stopped | .starting | .active | .draining | .faulted => s

/-- The signal that the link has entered FAULT, by the journal state (R184). -/
def faultSignal (s : State) : State :=
  match s.journal.state with
  | .starting =>
    endRunning .failed (some .initFail) 0 0 { s with journal.state := .faulted, journal.resume := some .active }
  | .active => { s with journal.state := .faulted, journal.resume := some .active }
  | .pausing | .paused =>
    endRunning .failed (some .linkFault) 0 0 { s with journal.state := .faulted, journal.resume := some .paused }
  | .draining =>
    endRunning .failed (some .linkFault) 0 0 { s with journal.state := .faulted, journal.resume := some .draining }
  | .faulted | .stopped => endRunning .failed (some .initFail) 0 0 s

/-- The link became ready for START: the journal is ACTIVE and START is DONE with the origin (R177). -/
def startReady (s : State) : State :=
  endRunning .done none (positionWord s.space.origin) 0 { s with journal.state := .active }

/-- RECOVER's initialisation succeeded (R163, R185): the journal takes its resume state; RECOVER is DONE, but returned to
PAUSED it stays RUNNING until the link is quiescent. -/
def recovered (s : State) : State :=
  match s.journal.resume with
  | some .paused =>
    { s with journal.state := .paused, journal.resume := none, link.pauseReq := true, link.attempts := 0 }
  | some r =>
    endRunning .done none 0 0
      { s with journal.state := resumeTarget r, journal.resume := none, link.pauseReq := false, link.attempts := 0 }
  | none => s

/-- The FINAL marker became DURABLE: the generation ends and STOP completes (R25, R93, R181). Staging is empty then (R57,
R181). -/
def stopCompletes (s : State) : State :=
  let s := if runningCode codeStop s then endRunning .done none 0 0 s else s
  endTracking
    { s with
      journal.state := .stopped
      journal.resume := none
      capture.openRec := none
      capture.openGap := none
      staging.queue := []
      staging.finalMark := .none }

end Sys2Proof.Machine
end

