-- ==== Sys2Proof/Machine/LinkOps.lean ====
section
/-! DEFINITION. The Store Link Engine: frames, the choice of the next exchange, errors and retries, FAULT, initialisation,
commits and abandonment (chapters 7 and 8). -/

namespace Sys2Proof.Machine

/-! ## Sending (R119, R120, R129, R132) -/

/-- The count field of WRITE_RUN: the count of a counted run, 0 for an uncounted one (R129). -/
def countField (count : Nat) : Byte := if count ≤ 255 then BitVec.ofNat 8 count else 0

/-- The argument of a command as the present state gives it (R121). -/
def argument (c : LinkCmd) (s : State) : BitVec 40 :=
  match c with
  | .setup => setupArgument s.link.initValues.width s.link.initValues.blockSize
  | .writeRun => (s.link.run.map fun r => addressArgument r.start (countField r.count)).getD 0
  | .readOne => (s.link.readback.map fun a => addressArgument a 0).getD 0
  | .resetStore | .ident | .endRun | .commit | .status => 0

/-- A command frame goes out with the tag counter's value as its tag, and the counter advances (R120). -/
def sendFrame (c : LinkCmd) (s : State) : State :=
  { s with
    link.tagCounter := s.link.tagCounter + 1
    link.sentTag := s.link.tagCounter
    link.phase := .frame c
    ports.linkOut := s.ports.linkOut ++ [.frame (commandFrame c s.link.tagCounter (argument c s))] }

/-- The link comes to rest in a state, both gaps running (R119, R132). -/
def restIn (st : LinkState) (s : State) : State := { s with link.state := st, link.phase := .rest true true }

/-- A command waits for the command gap (R119). -/
def awaitGap (c : LinkCmd) (s : State) : State := { s with link.phase := .gap c }

/-- The epoch of the newest ACCEPTED entry, if there is one (R87). -/
def newestAccepted (s : State) : Option Word :=
  ((s.markers.entries.filter fun m => m.state == .accepted).getLast?).map (·.epoch)

/-- A chosen command is issued, with what its issue sets: COMMIT the commit epoch and the recorded head (R87, R109, R150),
WRITE_RUN the run record (R146). -/
def issueCommand (c : LinkCmd) (s : State) : State :=
  let s := { s with link.sendCount := 0, link.idle := none }
  match c with
  | .commit =>
    sendFrame .commit
      { s with
        link.state := .committing
        markers.commitEpoch := newestAccepted s
        space.recordedHead := some s.space.head }
  | .writeRun =>
    sendFrame .writeRun
      { s with
        link.state := .opening
        link.run := some ⟨headAddress s, runLimit s, runLimit s, s.link.tagCounter⟩ }
  | .endRun => sendFrame .endRun { s with link.state := .ending }
  | .readOne => sendFrame .readOne { s with link.state := .reading }
  | .resetStore | .ident | .setup | .status => s

/-- The oldest SEALED block starts out at the head's address: its slot becomes IN_FLIGHT, the link SENDING (R132, R147). -/
def startBlock (s : State) : State :=
  match oldestSealed s with
  | some (i, b) =>
    setSlot i (.inFlight b)
      { s with
        link.state := .sending
        link.phase := .blockOut b.draft.serial (headAddress s)
        ports.linkOut := s.ports.linkOut ++ [.block s.link.width (sealedBytes s.framer.blockSize b)] }
  | none => s

/-! ## Choosing the next exchange (R144, R145) -/

/-- What R144 chooses. -/
inductive Choice where
  | nothing
  | boundary
  | closeRun
  | idle
  | block
  | command (c : LinkCmd)
  deriving DecidableEq, Repr

/-- The journal is in a sending state (R143). -/
def sendingState (s : State) : Bool :=
  match s.journal.state with
  | .active | .pausing | .draining => true
  | .stopped | .starting | .paused | .faulted => false

/-- RECOVER is bringing the link to its boundary in PAUSED (R144, R163). -/
def recoverBoundary (s : State) : Bool := s.journal.state == .paused && runningCode codeRecover s

/-- The table of R144 with the link READY. A READBACK that is waiting sends READ_ONE (R165). -/
def chooseReady (s : State) : Choice :=
  if s.link.readback.isSome then .command .readOne
  else if !(sendingState s || recoverBoundary s) then .nothing
  else if commitOwed s then .command .commit
  else if s.link.pauseReq then .boundary
  else if sendingState s && hasSealed s && decide (0 < freeBlocks s) then .command .writeRun
  else .nothing

/-- The table of R144 with the link IN_RUN. -/
def chooseInRun (s : State) : Choice :=
  if !sendingState s then .nothing
  else if commitOwed s || s.link.pauseReq then .command .endRun
  else
    match s.link.run with
    | none => .nothing
    | some r =>
      if r.remaining = 0 then (if r.count ≤ 255 then .closeRun else .command .endRun)
      else if hasSealed s then (if 0 < freeBlocks s then .block else .nothing)
      else .idle

/-- The next exchange by R144, for a link at rest. -/
def choose (s : State) : Choice :=
  match s.link.state with
  | .ready => chooseReady s
  | .inRun => chooseInRun s
  | .off | .init | .opening | .sending | .tokenWait | .programming | .ending | .committing | .reading | .recovering
  | .fault => .nothing

/-- END_RUN is sent because the run was idle: at once, or after the command gap if it still runs (R148, R149). DESIGN CHOICE (log
entry 9): at an expiry during the command gap the link goes to ENDING at once, and END_RUN waits for the gap. -/
def endIdleRun (cmdGap : Bool) (s : State) : State :=
  let s := { s with link.state := .ending, link.sendCount := 0, link.idle := none }
  if cmdGap then awaitGap .endRun s else sendFrame .endRun s

/-- The idle timer starts unless it runs already; with a limit of 0 it expires at once (R149), also while the command gap runs
(DESIGN CHOICE, log entry 9). -/
def startIdle (cmdGap : Bool) (s : State) : State :=
  if s.link.idle.isSome then s
  else if s.words.runIdleLimit = 0 then endIdleRun cmdGap s
  else { s with link.idle := some ⟨s.words.runIdleLimit.toNat, 0⟩ }

/-- Acting on a choice. A command waits while the command gap runs and a block while the data gap runs: the link stays at
rest, and R144 is read again when the gap ends (log entry 9). -/
def act (cmdGap dataGap : Bool) (s : State) : Choice → State
  | .nothing => { s with link.idle := none }
  | .boundary => quiescent { s with link.idle := none }
  | .closeRun => s
  | .idle => startIdle cmdGap s
  | .block => if dataGap then { s with link.idle := none } else startBlock { s with link.idle := none }
  | .command c => if cmdGap then { s with link.idle := none } else issueCommand c s

/-- A counted run whose run remaining is 0 is closed at the store (line 3 of R144). -/
def closeRun (s : State) : State := { s with link.run := none, link.state := .ready, link.idle := none }

/-- The Link Engine at rest reads R144 and acts on it; a link that is not at rest chooses nothing (R144, R145). -/
def linkChoose (s : State) : State :=
  match s.link.phase with
  | .rest g d => if choose s = .closeRun then act g d (closeRun s) (choose (closeRun s)) else act g d s (choose s)
  | _ => s

/-! ## Errors and FAULT (R135, R157, R158) -/

/-- An error detected on the link: the last-error detail, LINK_ERROR and LINK_ERRORS (R135, R158, R159). -/
def linkError (k : LinkErr) (c : LinkCmd) (tag : Byte) (serial addr : Option Word) (attempt : Nat) (o : ErrOutcome)
    (s : State) : State :=
  raise .linkError (bump .linkErrors 1
    { s with link.lastError := some ⟨k, c, tag, serial, addr, attempt, s.link.state, s.journal.state, o⟩ })

/-- Entry to FAULT (R157): the block in flight returns to SEALED, run, recovery, idle timer, commit epoch and recorded head
are cleared, a READBACK's request with them (R165), LINK_FAULT is raised and Journal Control is signalled. -/
def enterFault (s : State) : State :=
  let s := returnInFlight s
  faultSignal (raise .linkFault
    { s with
      link.state := .fault
      link.phase := .rest true true
      link.run := none
      link.recovery := false
      link.idle := none
      link.readback := none
      markers.commitEpoch := none
      space.recordedHead := none })

/-- One more re-send is counted, in the happening that decides it (R159, R198; DESIGN CHOICE for commands, log entry 36). -/
def countRetry (s : State) : State := bump .retries 1 s

/-- The tag of the WRITE_RUN that opened the run (R158). -/
def runTag (s : State) : Byte := (s.link.run.map (·.tag)).getD s.link.sentTag

/-- The store block address in the argument of the command, for WRITE_RUN and READ_ONE (R158). -/
def commandAddress (c : LinkCmd) (s : State) : Option Word :=
  match c with
  | .writeRun => s.link.run.map (·.start)
  | .readOne => s.link.readback
  | .resetStore | .ident | .setup | .endRun | .commit | .status => none

/-! ## Initialisation (R136, R137, R139, R141) -/

/-- The configuration read at the start of an initialisation, at the init divisor and width 1 (R136). -/
def loadInit (s : State) : State :=
  { s with
    link.initValues :=
      ⟨s.words.initDivisor, s.words.runDivisor, s.words.busWidth, s.words.blockSize, s.words.retryLimit,
        s.words.busyLimit⟩
    link.clockOn := true
    link.divisor := s.words.initDivisor
    link.width := .one }

/-- An initialisation begins from OFF: the clock starts and 80 idle periods pass (R136). -/
def initFromOff (s : State) : State := { loadInit s with link.phase := .idlePeriod }

/-- An initialisation begins: from OFF with the idle periods, otherwise with RESET_STORE, which waits for no gap (DESIGN CHOICE,
log entry 9); while an abandonment is still settling it waits (R136, R168). -/
def beginInit (s : State) : State :=
  let wasOff := s.link.state == .off
  let s := { s with
    link.state := .init
    link.run := none
    link.idle := none
    link.consecutive := 0
    link.initExpired := false }
  if s.link.abandoning then s
  else if wasOff then initFromOff s
  else sendFrame .resetStore (loadInit s)

/-- The initialisation succeeded: the link is READY and the Link Engine goes on with the work that called for it (R141,
R156, R163, R165, R177). -/
def initSucceeds (s : State) : State :=
  let s := restIn .ready { s with link.consecutive := 0, link.recovery := false }
  linkChoose
    (if s.link.readback.isSome then s
     else match s.journal.state with
      | .starting => startReady s
      | .faulted => recovered s
      | .stopped | .active | .pausing | .paused | .draining => s)

/-- An error of the initialisation that makes it fail (R138 to R141). -/
def initFails (k : LinkErr) (c : LinkCmd) (s : State) : State :=
  enterFault (linkError k c s.link.sentTag none none (s.link.consecutive + 1) .fault s)

/-- A transport error of IDENT, SETUP or STATUS: sent again within the retry limit, else the initialisation fails (R137,
R138, R140, R141). If the init limit has expired meanwhile, INIT_TIMEOUT follows (R138). RETRIES counts the re-send in the
happening of the error (DESIGN CHOICE, log entry 36). -/
def initTransport (k : LinkErr) (c : LinkCmd) (s : State) : State :=
  let n := s.link.consecutive + 1
  if s.link.initValues.retryLimit.toNat < n then
    enterFault (linkError k c s.link.sentTag none none n .fault { s with link.consecutive := n })
  else if s.link.initExpired && c == .ident then
    initFails .initTimeout .ident
      { linkError k c s.link.sentTag none none n .fault s with link.consecutive := n }
  else
    awaitGap c (countRetry { linkError k c s.link.sentTag none none n .retry s with link.consecutive := n })

/-- The serial of an identity equals that of the generation's store identity, where R139 asks it: when the journal is not
STOPPED and the initialisation was not begun by START. -/
def serialAgrees (i : Identity) (s : State) : Bool :=
  match s.journal.state with
  | .stopped | .starting => true
  | .active | .pausing | .paused | .draining | .faulted =>
    match s.link.genStoreId with
    | some g => g.serial == i.serial
    | none => Config.emptyIdentityAgrees

/-- The maximum width of an identity is not less than a width (R139). -/
def widthSupported (i : Identity) (w : Width) : Bool := decide (widthLines w ≤ i.maxWidth.toNat)

/-- The checks of R139 on a ready identity. -/
def identityGood (i : Identity) (s : State) : Bool :=
  i.sizes.getLsbD (blockSizeIndex s.link.initValues.blockSize) && widthSupported i s.link.initValues.width
    && serialAgrees i s

/-- The identity passed: it is the store identity, and at START's initialisation the generation's too; SETUP follows
(R139, R140). -/
def keepIdentity (i : Identity) (s : State) : State :=
  awaitGap .setup
    { s with
      link.storeId := some i
      link.genStoreId := if s.journal.state = .starting then some i else s.link.genStoreId }

/-- A long response to IDENT was taken (R138, R139). -/
def identTaken (i : Identity) (s : State) : State :=
  let s := { s with link.consecutive := 0 }
  if s.link.initExpired then initFails .initTimeout .ident s
  else if i.capacity = 0 then { s with link.phase := .poll }
  else if identityGood i s then keepIdentity i s
  else initFails .identMismatch .ident s

/-! ## Commands of runs, commits and readback (R148, R151, R154, R166) -/

/-- A READBACK ends without faulting the link (R166, R183). -/
def endReadback (status : CmdStatus) (reason : Option Reason) (s : State) : State :=
  endRunning status reason (if status = .done then s.link.readback.getD 0 else 0) 0
    (restIn .ready { s with link.readback := none })

/-- What the Link Engine does when a command has failed (R154). -/
def failOutcome (c : LinkCmd) : ErrOutcome :=
  match c with
  | .endRun => .reinit
  | .readOne => .failed
  | .resetStore | .ident | .setup | .writeRun | .commit | .status => .fault

/-- A command has failed: END_RUN brings a full re-initialisation (R156), READ_ONE ends READBACK (R166), the others FAULT
(R157). -/
def commandFails (c : LinkCmd) (s : State) : State :=
  match c with
  | .endRun => beginInit s
  | .readOne => endReadback .failed (some .readError) s
  | .resetStore | .ident | .setup | .writeRun | .commit | .status => enterFault s

/-- An error that lets a command be sent again while its send count is within the retry limit (R154, R166). RETRIES counts the
re-send in the happening of the error (DESIGN CHOICE, log entry 36). -/
def retryOrFail (k : LinkErr) (c : LinkCmd) (s : State) : State :=
  let n := s.link.sendCount + 1
  let within := n ≤ s.words.retryLimit.toNat
  let s := linkError k c s.link.sentTag none (commandAddress c s) n (if within then .retry else failOutcome c) s
  let s := { s with link.sendCount := n }
  if within then awaitGap c (countRetry s) else commandFails c s

/-- A transport error of a response (R124, R135). -/
def transportError (k : LinkErr) (c : LinkCmd) (s : State) : State :=
  match c with
  | .ident | .setup | .status => initTransport k c s
  | .resetStore | .writeRun | .endRun | .commit | .readOne => retryOrFail k c s

/-- A status error of a short response: ERR_WRITE in END_RUN brings FAULT, every other failure the command's own (R148,
R154). -/
def statusError (k : LinkErr) (c : LinkCmd) (status : Word) (s : State) : State :=
  match c with
  | .ident | .setup | .status => initFails k c s
  | .resetStore | .writeRun | .endRun | .commit | .readOne =>
    let lost := c == .endRun && statusErrWrite status
    let s := linkError k c s.link.sentTag none (commandAddress c s) (s.link.sendCount + 1)
      (if lost then .fault else failOutcome c) s
    if lost then enterFault s else commandFails c s

/-- The exchange that an abandonment let end is over: its response goes unchecked, and RESET_STORE is sent (R128). -/
def discardExchange (s : State) : State := sendFrame .resetStore { s with link.resetDue := false }

/-- A response in the window of its command is handled, or discarded when an abandonment waits for it; outside that window
the Bridge ignores what the store drives (R116, R124, R128). -/
def inWindow (c : LinkCmd) (f : State → State) (s : State) : State :=
  if s.link.phase = .window c then (if s.link.resetDue then discardExchange s else f s) else s

/-- A short response is checked in the order of R124; one that passes check 4 is the last store status (R126). -/
def shortResponse (c : LinkCmd) (bits : BitVec 64) (taken : State → State) (s : State) : State :=
  inWindow c (fun s =>
    match shortTransport c s.link.sentTag bits with
    | some k => transportError k c s
    | none =>
      let s := { s with link.lastStatus := some ⟨shortStatus bits, shortState bits, c⟩ }
      match shortStatusError c bits with
      | some k => statusError k c (shortStatus bits) s
      | none => taken s) s

/-- A busy wait begins, its limit read at its start (R134). -/
def awaitBusy (c : LinkCmd) (s : State) : State := { s with link.phase := .busyCmd c s.words.busyLimit }

/-! ## Tokens, failed blocks and busy (R147, R152 to R155) -/

/-- END_RUN closes the run after a failure: it is sent after the command gap (R153). -/
def closeAfterFailure (s : State) : State := awaitGap .endRun { s with link.sendCount := 0 }

/-- The marker whose block serial is the accepted block's becomes ACCEPTED (R86). -/
def acceptMarker (serial : Word) (m : Marker) : Marker :=
  if m.serial = some serial && m.state == .sealed then { m with state := .accepted } else m

/-- The ACCEPT token is taken (R73, R86, R104, R147). A Framer that waits for a slot opens the freed one at once (R64). -/
def acceptToken (serial addr : Word) (s : State) : State :=
  let waiting := framerWaiting s
  let s := match inFlight s with
    | some (i, _) => setSlot i .free s
    | none => s
  let s := advanceHead s
  let s := { s with
    markers.entries := s.markers.entries.map (acceptMarker serial)
    link.run := s.link.run.map fun r => { r with remaining := r.remaining - 1 }
    link.attempts := 0
    link.state := .programming
    link.phase := .busyToken serial addr s.words.busyLimit }
  if waiting then framerStep s else s

/-- An attempt to send a block failed (R152): the block returns to SEALED and the attempt count rises; within the retry
limit the link goes to RECOVERING, awaiting a busy where one is due (R153), otherwise, and after RANGE, to FAULT. -/
def blockFails (k : LinkErr) (awaits : Bool) (serial addr : Word) (s : State) : State :=
  let s := returnInFlight s
  let n := s.link.attempts + 1
  let within := decide (n ≤ s.words.retryLimit.toNat) && k != .tokenRange
  let s := linkError k .writeRun (runTag s) (some serial) (some addr) n (if within then .recovery else .fault) s
  let s := { s with link.attempts := n }
  if within then
    let s := countRetry { s with link.state := .recovering, link.recovery := true }
    if awaits then { s with link.phase := .busyToken serial addr s.words.busyLimit } else closeAfterFailure s
  else enterFault s

/-- A token in the token window is handled; outside it the Bridge ignores what the store drives (R116, R133). -/
def inTokenWindow (f : Word → Word → State → State) (s : State) : State :=
  match s.link.phase with
  | .token serial addr => f serial addr s
  | _ => s

/-- What a token does (R133, R147, R152). -/
def takeToken (t : Token) (s : State) : State :=
  inTokenWindow (fun serial addr s =>
    match t with
    | .accept => acceptToken serial addr s
    | .crcBad => blockFails .tokenCrcBad false serial addr s
    | .writeFail => blockFails .tokenWriteFail true serial addr s
    | .range => blockFails .tokenRange false serial addr s
    | .invalid => blockFails .tokenInvalid true serial addr s) s

/-- The busy after a token has ended (R147, R153). -/
def tokenBusyEnds (s : State) : State :=
  match s.link.state with
  | .programming =>
    match s.link.run with
    | some r =>
      if r.count ≤ 255 && r.remaining == 0 then linkChoose (restIn .ready { s with link.run := none })
      else linkChoose (restIn .inRun s)
    | none => linkChoose (restIn .inRun s)
  | .recovering => closeAfterFailure s
  | .off | .init | .ready | .opening | .inRun | .sending | .tokenWait | .ending | .committing | .reading | .fault => s

/-! ## Commit success (R88, R89, R93, R109, R151) -/

/-- The markers a commit makes DURABLE: those at or below the commit epoch; none with an absent commit epoch (R88). -/
def durableMarkers (s : State) : List Marker :=
  match s.markers.commitEpoch with
  | some e => s.markers.entries.filter fun m => decide (m.epoch ≤ e)
  | none => []

/-- The entries that stay in the list (R88). -/
def stayingMarkers (s : State) : List Marker :=
  match s.markers.commitEpoch with
  | some e => s.markers.entries.filter fun m => !decide (m.epoch ≤ e)
  | none => s.markers.entries

/-- The held write awaits the epoch of a departing fenced marker (R89, R91). -/
def fenceReleased (gone : List Marker) (h : Held) : Bool :=
  match h.hold with
  | .fence e => gone.any fun m => m.fenced && m.epoch == e
  | .admitData .. | .tracking .. | .marker _ | .admitMark _ => false

/-- What departing markers and freed entries do to the held write: a fence ends (R91), a MARKER wait moves to ADMISSION
(R80). -/
def releaseHeld (gone : List Marker) (s : State) : State :=
  match s.held with
  | none => s
  | some h =>
    if fenceReleased gone h then finishWrite h.write s
    else
      match h.hold with
      | .marker trig => if listFull s then s else { s with held := some { h with hold := .admitMark trig } }
      | .admitData .. | .tracking .. | .admitMark _ | .fence _ => s

/-- Markers become DURABLE and leave the list; the durable epoch and tag follow the newest of them, and EPOCH_DURABLE is
raised once (R88, R89). -/
def makeDurable (s : State) : State :=
  let gone := durableMarkers s
  let s := { s with markers.entries := stayingMarkers s, markers.commitEpoch := none }
  match gone.getLast? with
  | none => s
  | some m =>
    let s := raise .epochDurable { s with markers.durableEpoch := m.epoch, markers.durableTag := m.tag }
    let s := releaseHeld gone s
    if gone.any (·.final) then stopCompletes s else s

/-- The durable boundary moves to the recorded head, and durable-used to used (R109). -/
def moveBoundary (s : State) : State :=
  { s with
    space.boundary := s.space.recordedHead.getD s.space.boundary
    space.durableUsed := if s.space.recordedHead.isSome then s.space.used else s.space.durableUsed
    space.recordedHead := none }

/-- A COMMIT ends in success (R151): COMMITS, markers, boundary, READY, and R144 is read. -/
def commitSucceeds (s : State) : State :=
  linkChoose (restIn .ready (makeDurable (moveBoundary (bump .commits 1 s))))

/-- The busy after an END_RUN or COMMIT response has ended (R148, R151, R153). -/
def commandBusyEnds (c : LinkCmd) (s : State) : State :=
  match c with
  | .endRun => linkChoose (restIn .ready { s with link.run := none, link.recovery := false })
  | .commit => commitSucceeds s
  | .resetStore | .ident | .setup | .writeRun | .status | .readOne => s

/-- The busy limit expired after a token: recorded, and END_RUN closes the run after the command gap (R153, R155). -/
def tokenBusyTimeout (serial addr : Word) (s : State) : State :=
  closeAfterFailure
    { linkError .busyTimeout .writeRun (runTag s) (some serial) (some addr) (s.link.sendCount + 1) .recovery s with
      link.state := .recovering }

/-- The busy limit expired after an END_RUN or COMMIT response (R148, R151, R154). -/
def commandBusyTimeout (c : LinkCmd) (s : State) : State :=
  commandFails c
    (linkError .busyTimeout c s.link.sentTag none (commandAddress c s) (s.link.sendCount + 1) (failOutcome c) s)

/-! ## Abandonment (R128, R168) -/

/-- HALT and SOFT_RESET end any work of the Link Engine (R168). Unless the link was OFF, RESET_STORE is sent: at once, cutting
a block out, or when a frame, a response window or a reset settle in progress has ended (R128; log entry 10). So too for a
link in INIT whose initialisation waits for an earlier abandonment to settle (R141). DESIGN CHOICE (log entry 10): where an earlier
abandonment's RESET_STORE still waits for that same end, one RESET_STORE serves both (R128, R186). -/
def abandonLink (s : State) : State :=
  let wasOff := s.link.state == .off
  let s := { s with
    link.state := .off
    link.run := none
    link.pauseReq := false
    link.recovery := false
    link.readback := none
    link.attempts := 0
    link.sendCount := 0
    link.idle := none }
  if wasOff then s
  else
    let s := { s with link.abandoning := true }
    match s.link.phase with
    | .frame _ | .window _ | .settle => { s with link.resetDue := true }
    | .rest _ _ | .idlePeriod | .gap _ | .poll | .blockOut _ _ | .token _ _ | .busyToken _ _ _ | .busyCmd _ _
    | .readData => sendFrame .resetStore (noteCut s)

/-- The reset settle time of an abandonment ends: LCLK stops, and a waiting initialisation begins as from OFF (R168). -/
def abandonmentEnds (s : State) : State :=
  let s := { s with link.abandoning := false, link.clockOn := false, link.phase := .rest false false }
  if s.link.state = .init then initFromOff s else s

end Sys2Proof.Machine
end

