-- ==== Sys2Proof/Machine/Commands.lean ====
section
/-! DEFINITION. The meanings of the management commands (chapter 9): each takes a write to the command word (R174). -/

namespace Sys2Proof.Machine

/-- A management frame acts while PORn is high and the port is not ignoring the frame in progress (R202). -/
def whenPort (f : State → State) (s : State) : Result := .next (if s.pornLow || s.mgmtIgnore then s else f s)

/-! ## START (R176) -/

/-- The placement field of the command word (R204). -/
def readPlacement (p : BitVec 2) : Option Placement :=
  if p = 0 then some .continue else if p = 1 then some .fromOrigin else none

/-- The GEN record START forms (R29). -/
def genFields (p : Placement) (generation : Half) (s : State) : GenFields :=
  { generation := generation, blockSize := s.words.blockSize,
    regionSet := BitVec.ofNat 16 (bitsToNat (s.regions.toList.map (·.enabled))),
    triggerSet := BitVec.ofNat 4 (bitsToNat (s.triggers.toList.map (·.enabled))),
    fencedSet := BitVec.ofNat 4 (bitsToNat (s.triggers.toList.map (·.fenced))), placement := p }

/-- The Space Tracker at START: chain and capacity, positions by the placement, origin, STORE_LOW armed (R101, R103). -/
def startSpace (p : Placement) (ch : List Extent) (sp : Space) : Space :=
  match p with
  | .fromOrigin => { Space.por with chain := ch }
  | .continue => { sp with chain := ch, origin := sp.head, recordedHead := none, lowArmed := true }

/-- The comparisons of START: free against the threshold (R106), and a CONTINUE into a full space (R107). -/
def startCompares (s : State) : State :=
  let s := compareLow s
  raiseIf (storeFull s) .storeFull s

/-- START is taken: all its steps in one happening (R25, R29, R61, R77, R142, R176). The GEN record enters an empty staging
(R48, R57). -/
def startTaken (p : Placement) (generation : Half) (ch : List Extent) (s : State) : State :=
  let s := runCommand codeStart
    { s with journal.state := .starting, journal.resume := none, journal.generation := generation }
  let s := startCompares { s with space := startSpace p ch s.space }
  let s := { s with
    capture := { seqCounter := 0, epochCounter := 1, openRec := none, openGap := none }
    staging.queue := []
    staging.finalMark := .none
    markers.durableEpoch := 0
    markers.durableTag := 0
    markers.commitEpoch := none
    framer := { Framer.por with generation := generation, blockSize := s.words.blockSize } }
  let s := enterRecord (.gen (genFields p generation s)) s
  beginInit
    { s with
      link.attempts := 0
      link.pauseReq := false
      link.readback := none
      link.recovery := false }

/-- The answer to START, by the first case of R176 that applies. -/
def startOwn (placement : BitVec 2) (generation : Half) (s : State) : State :=
  if s.journal.state ≠ .stopped then refuse codeStart .badState s
  else
    match readPlacement placement, chainFrom s.extents.toList with
    | none, _ => refuse codeStart .badArgument s
    | some _, none => refuse codeStart .extentInvalid s
    | some p, some ch =>
      if !chainGood ch then refuse codeStart .extentInvalid s
      else if p = .continue && !keptPositionsGood ch s.space then refuse codeStart .extentInvalid s
      else startTaken p generation ch s

/-- START taken from the command word (R174, R176). -/
def startCommand (placement : BitVec 2) (generation : Half) (s : State) : State :=
  takeCommand codeStart false (startOwn placement generation) s

/-- START (R176). -/
def execStart (placement : BitVec 2) (generation : Half) (s : State) : Result :=
  whenPort (startCommand placement generation) s

/-! ## STOP (R180) -/

/-- STOP is taken in ACTIVE or PAUSED: the five steps of R180, in order; a block the PAUSE seal seals makes the link at
rest read R144 (R145). -/
def stopTaken (s : State) : State :=
  let wasPaused := s.journal.state == .paused
  let s := runCommand codeStop { s with journal.state := .draining }
  let s := if wasPaused then linkChoose { s with link.pauseReq := false } else s
  let s := requestPauseSeal (settleHeldForStop s)
  linkChoose { s with staging.finalMark := .waiting }

/-- The answer to STOP (R180). -/
def stopOwn (s : State) : State :=
  match s.journal.state with
  | .active | .paused => stopTaken s
  | .draining => runCommand codeStop s
  | .stopped | .starting | .pausing | .faulted => refuse codeStop .badState s

/-- STOP taken from the command word. -/
def stopCommand (s : State) : State := takeCommand codeStop false stopOwn s

/-- STOP (R180). -/
def execStop (s : State) : Result := whenPort stopCommand s

/-! ## HALT and SOFT_RESET (R186, R187) -/

/-- The PTP, the RTQ, the Capture Unit, staging, the window and the Framer at HALT (R17, R23, R44, R58, R61, R75). -/
def haltPath (s : State) : State :=
  let s := endTracking (forwardHeld s)
  { s with
    rtq.voids := []
    capture := { seqCounter := 0, epochCounter := 1, openRec := none, openGap := none }
    staging := { queue := [], highArmed := true, finalMark := .none, lowWritten := false }
    window := Vector.replicate 8 .free
    framer.serialCounter := 0
    framer.framingEpoch := 1
    framer.sealTimer := none
    framer.due := .none }

/-- The Marker List and the Space Tracker at HALT (R95, R114). -/
def haltMarkers (s : State) : State :=
  let s1 := { s with markers.entries := [], markers.commitEpoch := none, space.recordedHead := none }
  raiseIf (!s.markers.entries.isEmpty) .markDropped s1

/-- HALT's steps, in the order of R186, for the command of a code. -/
def haltSteps (code : BitVec 4) (s : State) : State :=
  let s := overtake (nextNumber s)
  let s := abandonLink (haltMarkers (haltPath s))
  raise .commandDone
    { s with
      journal.state := .stopped
      journal.resume := none
      journal.slot := commandRecord code .done none 0 0 s }

/-- HALT taken from the command word. -/
def haltCommand (s : State) : State := haltSteps codeHalt s

/-- HALT (R186). -/
def execHalt (s : State) : Result := whenPort haltCommand s

/-- SOFT_RESET taken from the command word: the clearing comes first in the happening (R187). -/
def softResetCommand (s : State) : State := haltSteps codeSoftReset (clearEvents s)

/-- SOFT_RESET (R187). -/
def execSoftReset (s : State) : Result := whenPort softResetCommand s

/-! ## PAUSE and RESUME (R178, R179) -/

/-- The answer to PAUSE: taken in ACTIVE, with the pause request set before the seal it asks for, so that no block is sent
after PAUSE (R161, R178). -/
def pauseOwn (s : State) : State :=
  if s.journal.state = .active then
    linkChoose (requestPauseSeal
      (runCommand codePause { s with journal.state := .pausing, link.pauseReq := true }))
  else refuse codePause .badState s

/-- PAUSE taken from the command word. -/
def pauseCommand (s : State) : State := takeCommand codePause false pauseOwn s

/-- PAUSE (R178). -/
def execPause (s : State) : Result := whenPort pauseCommand s

/-- RESUME is taken: a RUNNING PAUSE is ABANDONED, the pause request cleared, the journal ACTIVE, RESUME DONE, and R144 is
read (R162, R179). -/
def resumeTaken (s : State) : State :=
  let s := overtake s
  linkChoose (raise .commandDone
    { s with
      journal.state := .active
      journal.slot := commandRecord codeResume .done none 0 0 s
      link.pauseReq := false })

/-- The answer to RESUME (R179). -/
def resumeOwn (s : State) : State :=
  match s.journal.state with
  | .pausing | .paused => resumeTaken s
  | .stopped | .starting | .active | .draining | .faulted => refuse codeResume .badState s

/-- RESUME taken from the command word; a RUNNING PAUSE admits it (R174). -/
def resumeCommand (s : State) : State := takeCommand codeResume (runningCode codePause s) resumeOwn s

/-- RESUME (R179). -/
def execResume (s : State) : Result := whenPort resumeCommand s

/-! ## MARK and RECLAIM (R83, R111, R182) -/

/-- The answer to MARK, by the first line of R83 that applies. -/
def markOwn (tag : Half) (s : State) : State :=
  if !capturing s then refuse codeMark .badState s
  else if s.capture.epochCounter = epochTop then refuse codeMark .range s
  else if listFull s || !markGranted s then refuse codeMark .listFull s
  else complete codeMark s.capture.epochCounter 0 (enterMark tag .command false false s)

/-- MARK taken from the command word. -/
def markCommand (tag : Half) (s : State) : State := takeCommand codeMark false (markOwn tag) s

/-- MARK (R83). -/
def execMark (tag : Half) (s : State) : Result := whenPort (markCommand tag) s

/-- The tail advances by n blocks, used and durable-used fall by n, and free is compared (R106, R111). -/
def reclaimBlocks (n : Nat) (s : State) : State :=
  compareLow
    { s with
      space.tail := advance s.space.chain n s.space.tail
      space.used := s.space.used - n
      space.durableUsed := s.space.durableUsed - n }

/-- The answer to RECLAIM, with the argument word as its block count (R111); RECLAIM makes the link at rest read R144
(R145). -/
def reclaimOwn (s : State) : State :=
  let n := s.argWord.toNat
  if n = 0 then refuse codeReclaim .badArgument s
  else if s.space.durableUsed < n then refuse codeReclaim .range s
  else
    let s := reclaimBlocks n s
    linkChoose (complete codeReclaim (positionWord s.space.tail) (BitVec.ofNat 32 (freeBlocks s)) s)

/-- RECLAIM taken from the command word; a RUNNING STOP admits it (R174, R182). -/
def reclaimCommand (s : State) : State := takeCommand codeReclaim (runningCode codeStop s) reclaimOwn s

/-- RECLAIM (R111). -/
def execReclaim (s : State) : Result := whenPort reclaimCommand s

/-! ## READBACK and RECOVER (R183, R185) -/

/-- The answer to READBACK, with the argument word as its store block address: from READY READ_ONE is sent, otherwise an
initialisation comes first (R165, R183). -/
def readbackOwn (s : State) : State :=
  match s.journal.state with
  | .stopped | .paused | .faulted =>
    let s := runCommand codeReadback { s with link.readback := some s.argWord }
    if s.link.state = .ready then linkChoose s else beginInit s
  | .starting | .active | .pausing | .draining => refuse codeReadback .badState s

/-- READBACK taken from the command word. -/
def readbackCommand (s : State) : State := takeCommand codeReadback false readbackOwn s

/-- READBACK (R183). -/
def execReadback (s : State) : Result := whenPort readbackCommand s

/-- The answer to RECOVER: an initialisation in FAULTED (R163, R185). -/
def recoverOwn (s : State) : State :=
  if s.journal.state = .faulted then beginInit (runCommand codeRecover s) else refuse codeRecover .badState s

/-- RECOVER taken from the command word. -/
def recoverCommand (s : State) : State := takeCommand codeRecover false recoverOwn s

/-- RECOVER (R185). -/
def execRecover (s : State) : Result := whenPort recoverCommand s

/-! ## Command word (R174, R204) -/

/-- A command word whose code names no command: REFUSED with BAD_ARGUMENT, or BUSY beside a RUNNING command (R174). -/
def badCodeCommand (code : BitVec 4) (s : State) : State :=
  takeCommand code false (refuse code .badArgument) s

/-- BAD_COMMAND_CODE (R174). -/
def execBadCommandCode (code : BitVec 4) (s : State) : Result := whenPort (badCodeCommand code) s

/-- Journal Control takes the command of a written command word (R174; fields of R204). -/
def commandWord (v : Word) (s : State) : State :=
  let code := v.extractLsb' 0 4
  let short : Half := v.extractLsb' 16 16
  if code = codeStart then startCommand (v.extractLsb' 4 2) short s
  else if code = codeStop then stopCommand s
  else if code = codeHalt then haltCommand s
  else if code = codePause then pauseCommand s
  else if code = codeResume then resumeCommand s
  else if code = codeMark then markCommand short s
  else if code = codeReclaim then reclaimCommand s
  else if code = codeReadback then readbackCommand s
  else if code = codeRecover then recoverCommand s
  else if code = codeSoftReset then softResetCommand s
  else badCodeCommand code s

end Sys2Proof.Machine
end

