-- ==== Sys2Proof/Machine/Framing.lean ====
section
/-! DEFINITION. The meanings of the Framer's commands (R62, R68). A seal makes the Link Engine at rest read R144 (R145). -/

namespace Sys2Proof.Machine

/-- One copy of the Framer (R62). -/
def framerCopies (s : State) : State := linkChoose (framerStep s)

/-- FRAMER_COPY (R62). -/
def execFramerCopy (s : State) : Result := whenLive framerCopies s

/-- The seal timer expires, if it runs (R68). -/
def sealTimerExpires (s : State) : State := if s.framer.sealTimer.isSome then linkChoose (sealTimerRunsOut s) else s

/-- SEAL_TIMER_EXPIRY (R68). -/
def execSealTimerExpiry (s : State) : Result := whenLive sealTimerExpires s

end Sys2Proof.Machine
end

