-- ==== Sys2Proof/Machine/LinkInit.lean ====
section
/-! DEFINITION. The meanings of the link's waits, of RESP_TIMEOUT, and of the initialisation's responses (R119, R124, R128,
R136 to R141). -/

namespace Sys2Proof.Machine

/-- The 80 idle periods end: RESET_STORE of the initialisation is sent (R136). -/
def idlePeriodEnds (s : State) : State := if s.link.phase = .idlePeriod then sendFrame .resetStore s else s

/-- LINK_IDLE_PERIOD_END (R136). -/
def execLinkIdlePeriodEnd (s : State) : Result := whenLive idlePeriodEnds s

/-- The reset settle time ends: an abandonment's RESET_STORE that waited for it is sent, an abandonment ends, or the
initialisation polls with IDENT (R128, R138, R168). -/
def settleEnds (s : State) : State :=
  if s.link.phase ≠ .settle then s
  else if s.link.resetDue then discardExchange s
  else if s.link.abandoning then abandonmentEnds s
  else sendFrame .ident s

/-- RESET_SETTLE_END (R137). -/
def execResetSettleEnd (s : State) : Result := whenLive settleEnds s

/-- The end bits of a command frame are sent: RESET_STORE begins its settle time, and in an initialisation the init limit
and a fresh error count (R128, R137); any other command opens the response window (R124). -/
def frameEnds (c : LinkCmd) (s : State) : State :=
  if c = .resetStore then
    { s with link.phase := .settle, link.consecutive := 0, link.initExpired := false }
  else { s with link.phase := .window c }

/-- The command frame being sent, if there is one, ends (R124). -/
def commandFrameEnds (s : State) : State :=
  match s.link.phase with
  | .frame c => frameEnds c s
  | _ => s

/-- COMMAND_FRAME_END (R124). -/
def execCommandFrameEnd (s : State) : Result := whenLive commandFrameEnds s

/-- The command gap ends: the command that waits for it is sent; a link at rest reads R144, its gap over (R119, R144). -/
def commandGapEnds (s : State) : State :=
  match s.link.phase with
  | .gap c => sendFrame c s
  | .rest _ d => linkChoose { s with link.phase := .rest false d }
  | _ => s

/-- COMMAND_GAP_END (R119). -/
def execCommandGapEnd (s : State) : Result := whenLive commandGapEnds s

/-- The response window ends with no start bit: a transport error of its command, or the end of an exchange that an
abandonment let end (R124, R128). -/
def windowTimeout (s : State) : State :=
  match s.link.phase with
  | .window c => inWindow c (transportError .respTimeout c) s
  | _ => s

/-- RESP_TIMEOUT (R124). -/
def execRespTimeout (s : State) : Result := whenLive windowTimeout s

/-- The long response to IDENT is checked and taken (R123, R124, R138). -/
def identResponse (bits : BitVec 160) (s : State) : State :=
  inWindow .ident (fun s =>
    match longTransport .ident s.link.sentTag bits with
    | some k => transportError k .ident s
    | none => identTaken (longIdentity bits) s) s

/-- IDENT_RESPONSE (R138). -/
def execIdentResponse (bits : BitVec 160) (s : State) : Result := whenLive (identResponse bits) s

/-- The poll interval ends: another IDENT is sent, a fresh poll (R138). -/
def pollEnds (s : State) : State := if s.link.phase = .poll then sendFrame .ident s else s

/-- POLL_INTERVAL_END (R138). -/
def execPollIntervalEnd (s : State) : Result := whenLive pollEnds s

/-- The init limit expires: between two frames of the poll the initialisation fails; during a frame or its response it is
found expired when they have ended (R138; log entry 8). -/
def initLimit (s : State) : State :=
  if s.link.state != .init || s.link.abandoning then s
  else
    match s.link.phase with
    | .poll | .gap .ident => initFails .initTimeout .ident s
    | .frame .ident | .window .ident => { s with link.initExpired := true }
    | _ => s

/-- INIT_TIMEOUT (R138). -/
def execInitTimeout (s : State) : Result := whenLive initLimit s

/-- SETUP was taken: the clock goes to the run divisor and the width to the configured one, and STATUS follows (R140). -/
def setupTaken (s : State) : State :=
  awaitGap .status
    { s with
      link.consecutive := 0
      link.divisor := s.link.initValues.runDivisor
      link.width := s.link.initValues.width
      link.setupSize := s.link.initValues.blockSize }

/-- SETUP_RESPONSE (R140). -/
def execSetupResponse (bits : BitVec 64) (s : State) : Result := whenLive (shortResponse .setup bits setupTaken) s

/-- STATUS_RESPONSE: taken, the initialisation succeeds (R141). -/
def execStatusResponse (bits : BitVec 64) (s : State) : Result := whenLive (shortResponse .status bits initSucceeds) s

end Sys2Proof.Machine
end

