-- ==== Sys2Proof/Machine/LinkRun.lean ====
section
/-! DEFINITION. The meanings of the commands of runs, commits and readback on the store link (chapter 8, and R129 to
R134). -/

namespace Sys2Proof.Machine

/-- WRITE_RUN was taken: the run is open, and R144 is read (R125, R146). -/
def writeRunTaken (s : State) : State :=
  let tag := s.link.sentTag
  linkChoose (restIn .inRun { s with link.run := s.link.run.map fun r => { r with tag := tag } })

/-- WRITE_RUN_RESPONSE (R146). -/
def execWriteRunResponse (bits : BitVec 64) (s : State) : Result :=
  whenLive (shortResponse .writeRun bits writeRunTaken) s

/-- END_RUN was taken: the run is closed and the busy wait begins (R148). -/
def endRunTaken (s : State) : State := awaitBusy .endRun { s with link.run := none }

/-- END_RUN_RESPONSE (R148). -/
def execEndRunResponse (bits : BitVec 64) (s : State) : Result := whenLive (shortResponse .endRun bits endRunTaken) s

/-- COMMIT_RESPONSE: taken, the busy wait begins (R151). -/
def execCommitResponse (bits : BitVec 64) (s : State) : Result :=
  whenLive (shortResponse .commit bits (awaitBusy .commit)) s

/-- READ_ONE was taken: the read data window opens (R131, R166). -/
def readOneTaken (s : State) : State := { s with link.phase := .readData }

/-- READ_ONE_RESPONSE (R166). -/
def execReadOneResponse (bits : BitVec 64) (s : State) : Result :=
  whenLive (shortResponse .readOne bits readOneTaken) s

/-- The data gap ends: a link at rest in IN_RUN reads R144, and the oldest SEALED block starts out (R132, R147). -/
def dataGapEnds (s : State) : State :=
  match s.link.phase with
  | .rest g _ => if s.link.state = .inRun then linkChoose { s with link.phase := .rest g false } else s
  | _ => s

/-- DATA_GAP_END (R132). -/
def execDataGapEnd (s : State) : Result := whenLive dataGapEnds s

/-- The end bit of a block out is sent: the link goes to TOKEN_WAIT and the token window opens (R133, R147). -/
def blockOutEnds (s : State) : State :=
  match s.link.phase with
  | .blockOut serial addr => { s with link.state := .tokenWait, link.phase := .token serial addr }
  | _ => s

/-- BLOCK_OUT_END (R133). -/
def execBlockOutEnd (s : State) : Result := whenLive blockOutEnds s

/-- ACCEPT (R147). -/
def execAccept (s : State) : Result := whenLive (takeToken .accept) s

/-- CRC_BAD (R152). -/
def execCrcBad (s : State) : Result := whenLive (takeToken .crcBad) s

/-- WRITE_FAIL (R152). -/
def execWriteFail (s : State) : Result := whenLive (takeToken .writeFail) s

/-- RANGE (R157). -/
def execRange (s : State) : Result := whenLive (takeToken .range) s

/-- TOKEN_INVALID: a token with an unknown code or an end bit of 0 (R133, R135). -/
def execTokenInvalid (code : BitVec 4) (endBit : Bool) (s : State) : Result :=
  whenLive (takeToken (readToken code endBit)) s

/-- TOKEN_TIMEOUT: no start bit in the token window (R133, R152). -/
def execTokenTimeout (s : State) : Result :=
  whenLive (inTokenWindow (blockFails .tokenTimeout true)) s

/-- LDAT0 is sampled high in a busy wait (R134). -/
def busyEnds (s : State) : State :=
  match s.link.phase with
  | .busyToken _ _ _ => tokenBusyEnds s
  | .busyCmd c _ => commandBusyEnds c s
  | _ => s

/-- BUSY_END (R134). -/
def execBusyEnd (s : State) : Result := whenLive busyEnds s

/-- The busy limit expires with LDAT0 low (R134). -/
def busyExpires (s : State) : State :=
  match s.link.phase with
  | .busyToken serial addr _ => tokenBusyTimeout serial addr s
  | .busyCmd c _ => commandBusyTimeout c s
  | _ => s

/-- BUSY_TIMEOUT (R134). -/
def execBusyTimeout (s : State) : Result := whenLive busyExpires s

/-- The idle timer of an open run expires (R149). -/
def idleExpires (s : State) : State :=
  match s.link.phase, s.link.idle with
  | .rest g _, some _ => endIdleRun g s
  | _, _ => s

/-- RUN_IDLE_EXPIRY (R149). -/
def execRunIdleExpiry (s : State) : Result := whenLive idleExpires s

/-- A block in is received: the buffer is filled (R131); a bad line is READ_CRC, retried or failing READBACK (R166); the
trailer decides between DONE and CRC_MISMATCH (R167, R183). -/
def blockReceived (b : BlockIn) (s : State) : State :=
  let size := blockBytes s.link.setupSize
  let s := { s with buffer := fillBuffer size b.bytes }
  if !blockInGood s.link.width b then retryOrFail .readCrc .readOne s
  else if trailerAgrees size (fitBytes size b.bytes) then endReadback .done none s
  else endReadback .failed (some .crcMismatch) s

/-- Outside the read data window the Bridge ignores the data lines (R116, R131). -/
def readBlockIn (b : BlockIn) (s : State) : State := if s.link.phase = .readData then blockReceived b s else s

/-- READ_BLOCK_RECEIVED (R131, R167). -/
def execReadBlockReceived (b : BlockIn) (s : State) : Result := whenLive (readBlockIn b) s

/-- The read data window ends with no start bit; the buffer is not changed (R131, R166). -/
def readWindowExpires (s : State) : State :=
  if s.link.phase = .readData then retryOrFail .readTimeout .readOne s else s

/-- READ_TIMEOUT (R131). -/
def execReadTimeout (s : State) : Result := whenLive readWindowExpires s

end Sys2Proof.Machine
end

