-- ==== Sys2Proof/Machine/Window.lean ====
section
/-! DEFINITION. The register window as a READ frame returns it: every word of it, and the status that the Framer, the window and
the Marker List show (chapter 11, R76, R97). -/

namespace Sys2Proof.Machine

/-! ## Places in the window -/

/-- A word address lies in a range of n words. -/
def inWords (a : Half) (first n : Nat) : Bool := decide (first ≤ a.toNat) && decide (a.toNat < first + n)

/-- The entry of a table whose entries have w words, from its first word address on. -/
def entryOf (m : Nat) [NeZero m] (a : Half) (first w : Nat) : Fin m := Fin.ofNat m ((a.toNat - first) / w)

/-! ## Fields and their codes (R204, R205) -/

/-- A number as a word. -/
def word (n : Nat) : Word := BitVec.ofNat 32 n

/-- A field of a word: a number at a bit position. -/
def field (n position : Nat) : Word := word n <<< position

/-- A flag of a word at a bit position. -/
def flagAt (b : Bool) (position : Nat) : Word := field b.toNat position

/-- The journal states (R205). -/
def journalCode : JournalState → Nat
  | .stopped => 0
  | .starting => 1
  | .active => 2
  | .pausing => 3
  | .paused => 4
  | .draining => 5
  | .faulted => 6

/-- The resume state: absent 0, otherwise the value of the state it names (R205). -/
def resumeCode : Option Resume → Nat
  | none => 0
  | some r => journalCode (resumeTarget r)

/-- The link states, numbered in the order of the table of R143 (R205). -/
def linkCode : LinkState → Nat
  | .off => 0
  | .init => 1
  | .ready => 2
  | .opening => 3
  | .inRun => 4
  | .sending => 5
  | .tokenWait => 6
  | .programming => 7
  | .ending => 8
  | .committing => 9
  | .reading => 10
  | .recovering => 11
  | .fault => 12

/-- The status values of a command record (R204). -/
def cmdStatusCode : CmdStatus → Nat
  | .idle => 0
  | .running => 1
  | .done => 2
  | .refused => 3
  | .failed => 4
  | .abandoned => 5

/-- The reason values of a command record (R204). DESIGN CHOICE (log entry 37): 0 without a reason. -/
def reasonCode : Option Reason → Nat
  | none => 0
  | some .busy => 1
  | some .badState => 2
  | some .badArgument => 3
  | some .extentInvalid => 4
  | some .listFull => 5
  | some .range => 6
  | some .linkFault => 8
  | some .initFail => 9
  | some .crcMismatch => 10
  | some .readError => 11

/-- The error kinds, numbered from 1 in the order of the table of R135 (R205). -/
def errorCode : LinkErr → Nat
  | .respTimeout => 1
  | .respCrc => 2
  | .respCode => 3
  | .respTag => 4
  | .respStatus => 5
  | .respState => 6
  | .tokenTimeout => 7
  | .tokenInvalid => 8
  | .tokenCrcBad => 9
  | .tokenWriteFail => 10
  | .tokenRange => 11
  | .busyTimeout => 12
  | .readTimeout => 13
  | .readCrc => 14
  | .initTimeout => 15
  | .identMismatch => 16

/-- The outcomes of the last-error detail (R205). -/
def outcomeCode : ErrOutcome → Nat
  | .retry => 1
  | .recovery => 2
  | .reinit => 3
  | .fault => 4
  | .failed => 5

/-- The hold reason as shown; a write waiting for room for its MARK record shows as ADMISSION (R10, R205). -/
def holdCode : Option Held → Nat
  | none => 0
  | some h =>
    match h.hold with
    | .admitData .. | .admitMark _ => 1
    | .tracking .. => 2
    | .marker _ => 3
    | .fence _ => 4

/-- The awaited epoch (R91). -/
def awaitedEpoch (s : State) : Option Word :=
  match s.held with
  | some ⟨_, .fence e, _⟩ => some e
  | _ => none

/-- A command record (R204); an empty one reads 0 (R205). -/
def recordWord : Option CmdRecord → Word
  | none => 0
  | some r =>
    field r.number.toNat 0 ||| field r.code.toNat 8 ||| field (cmdStatusCode r.status) 12 ||| field (reasonCode r.reason) 16

/-- The words of a region entry (R205). -/
def regionWord (k : Nat) (r : Region) : Word :=
  match k with
  | 0 => r.basePage.extractLsb' 0 20 ++ 0#12
  | 1 =>
    field (r.basePage.extractLsb' 20 8).toNat 0 ||| flagAt r.enabled 8 ||| flagAt (r.policy == .shed) 9
      ||| flagAt r.coalesce 10 ||| field r.label.toNat 16
  | 2 => r.limitPage.extractLsb' 0 20 ++ 0#12
  | _ => field (r.limitPage.extractLsb' 20 8).toNat 0 ||| field r.stallLimit.toNat 16

/-- The words of a trigger entry; words 2 and 3 name no word (R205). -/
def triggerWord (k : Nat) (t : Trigger) : Word :=
  match k with
  | 0 => t.addr.extractLsb' 0 32
  | 1 => field (t.addr.extractLsb' 32 8).toNat 0 ||| flagAt t.enabled 8 ||| flagAt t.fenced 9
  | _ => 0

/-- The words of an extent entry (R205). -/
def extentWord (k : Nat) (e : Extent) : Word :=
  match k with
  | 0 => e.start
  | _ => field e.count.toNat 0 ||| flagAt e.valid 24 ||| flagAt e.last 25 ||| flagAt e.notify 26

/-- The state of a marker entry as shown (R205). -/
def markerCode : MarkerState → Nat
  | .recorded => 1
  | .sealed => 2
  | .accepted => 3

/-- The words of a Marker List entry. R205 gives the state 0 to no entry; DESIGN CHOICE (log entry 37): without an entry, or
without a block serial, the other fields read 0 too. -/
def markerWord (k : Nat) : Option Marker → Word
  | none => 0
  | some m =>
    match k with
    | 0 => m.epoch
    | 1 =>
      field m.tag.toNat 0 ||| field (sourceCode m.source) 16 ||| flagAt m.fenced 20 ||| flagAt m.final 21
        ||| field (markerCode m.state) 24 ||| flagAt m.serial.isSome 28
    | 2 => m.recSeq
    | _ => m.serial.getD 0

/-- The words of a store identity (R205). DESIGN CHOICE (log entry 37): an empty one reads 0. -/
def identityWord (k : Nat) : Option Identity → Word
  | none => 0
  | some i =>
    match k with
    | 0 => i.capacity
    | 1 => field i.sizes.toNat 0 ||| field i.maxWidth.toNat 4 ||| flagAt true 31
    | 2 => i.serial.extractLsb' 0 32
    | _ => i.serial.extractLsb' 32 32

/-- The words 0x00F0 to 0x00F3 of the last-error detail (R205). DESIGN CHOICE (log entry 37): an empty detail, and an absent
serial or address, read 0. -/
def errorWord (k : Nat) : Option ErrorDetail → Word
  | none => 0
  | some d =>
    match k with
    | 0 => field (errorCode d.kind) 0 ||| field (commandCode d.cmd).toNat 8 ||| field d.tag.toNat 16 ||| flagAt true 31
    | 1 => d.serial.getD 0
    | 2 => d.addr.getD 0
    | _ =>
      field (d.attempt % 16) 0 ||| field (linkCode d.link) 8 ||| field (journalCode d.journal) 12
        ||| field (outcomeCode d.outcome) 16 ||| flagAt d.serial.isSome 24 ||| flagAt d.addr.isSome 25

/-- A buffer word: four bytes, the first in bits 7 to 0 (R204). -/
def bufferWord (k : Nat) (m : Memory) : Word :=
  memoryRead m (4 * k + 3) ++ memoryRead m (4 * k + 2) ++ memoryRead m (4 * k + 1) ++ memoryRead m (4 * k)

/-- A configuration word (R204). -/
def configWord (n : Nat) (c : ConfigWords) : Word :=
  match n with
  | 0x10 => word (blockBytes c.blockSize)
  | 0x11 => word (widthLines c.busWidth)
  | 0x12 => word c.initDivisor.toNat
  | 0x13 => word c.runDivisor.toNat
  | 0x14 => word c.retryLimit.toNat
  | 0x15 => word c.busyLimit
  | 0x16 => word c.runIdleLimit.toNat
  | 0x17 => word c.sealTimer.toNat
  | 0x18 => word c.fenceLimit
  | 0x19 => word c.highWatermark
  | 0x1A => word c.lowWatermark
  | 0x1B => c.lowSpace
  | _ => 0

/-- The words 0x0021 to 0x0037: argument word, command records, journal status (R204, R205). DESIGN CHOICE (log entry 37): the
awaited epoch reads 0 while there is none. -/
def journalWord (n : Nat) (s : State) : Word :=
  let j := s.journal
  match n with
  | 0x21 => s.argWord
  | 0x22 => recordWord (some j.slot)
  | 0x23 => j.slot.r0
  | 0x24 => j.slot.r1
  | 0x25 => recordWord j.side
  | 0x26 => (j.side.map (·.r0)).getD 0
  | 0x27 => (j.side.map (·.r1)).getD 0
  | 0x28 => recordWord j.overtaken
  | 0x30 =>
    field (journalCode j.state) 0 ||| field (resumeCode j.resume) 4 ||| field j.number.toNat 8 ||| field j.generation.toNat 16
  | 0x31 => field (holdCode s.held) 0 ||| flagAt (awaitedEpoch s).isSome 8
  | 0x32 => (awaitedEpoch s).getD 0
  | 0x33 => s.capture.epochCounter
  | 0x34 => s.capture.seqCounter
  | 0x35 => word (occupiedBytes s)
  | 0x36 => word s.staging.queue.length
  | 0x37 => field (s.rtq.voids.length % 8) 0 ||| flagAt s.capture.openGap.isSome 8
  | _ => 0

/-- The words 0x0040 to 0x0044; the force word reads 0 (R190, R194, R195, R204). -/
def eventWord (n : Nat) (s : State) : Word :=
  match n with
  | 0x40 => word s.events.flags.toNat
  | 0x41 => word s.events.enables.toNat
  | 0x42 => word s.events.lineEnables.toNat
  | 0x44 => word (assertingSet s).toNat
  | _ => 0

/-- The words 0x00C0 to 0x00CC: positions, counts, origin, indications (R205). Word 0x00CC shows STORE_LOW armed, which is set
after POR (R106, R205); R204's table gives 0 for these words after POR. DESIGN CHOICE (log entry 38): the word reads 2 then. DESIGN
CHOICE (log entry 37): a recorded head that is absent reads 0. -/
def spaceWord (n : Nat) (s : State) : Word :=
  let sp := s.space
  match n with
  | 0xC0 => positionWord sp.head
  | 0xC1 => storeAddress sp.chain sp.head
  | 0xC2 => positionWord sp.boundary
  | 0xC3 => storeAddress sp.chain sp.boundary
  | 0xC4 => positionWord sp.tail
  | 0xC5 => storeAddress sp.chain sp.tail
  | 0xC6 => word sp.used
  | 0xC7 => word sp.durableUsed
  | 0xC8 => word (freeBlocks s)
  | 0xC9 => word (capacity s)
  | 0xCA => positionWord sp.origin
  | 0xCB => ((sp.recordedHead.map positionWord).getD 0) ||| flagAt sp.recordedHead.isSome 31
  | 0xCC => flagAt (commitOwedSpace s) 0 ||| flagAt sp.lowArmed 1
  | _ => 0

/-- The words 0x00E0 to 0x00F3 of the Link Engine (R205). DESIGN CHOICE (log entry 37): the words of an absent item read 0: the
run's 0x00E1 to 0x00E3 with no run record, the idle timer's 0x00E4 while it is stopped, and the fields of an empty status, identity
or error detail. -/
def linkWord (n : Nat) (s : State) : Word :=
  let l := s.link
  match n with
  | 0xE0 =>
    field (linkCode l.state) 0 ||| flagAt l.pauseReq 8 ||| flagAt l.recovery 9 ||| flagAt l.run.isSome 12
      ||| flagAt ((l.run.map fun r => decide (r.count ≤ 255)).getD false) 13 ||| field (l.attempts % 16) 16
      ||| field l.tagCounter.toNat 24
  | 0xE1 => (l.run.map (·.start)).getD 0
  | 0xE2 => word ((l.run.map (·.count)).getD 0)
  | 0xE3 => word ((l.run.map (·.remaining)).getD 0)
  | 0xE4 => word ((l.idle.map (·.elapsed)).getD 0)
  | 0xE5 => (l.lastStatus.map (·.status)).getD 0
  | 0xE6 =>
    (l.lastStatus.map fun t => field t.code.toNat 0 ||| field (commandCode t.cmd).toNat 8 ||| flagAt true 31).getD 0
  | 0xE7 => identityWord 0 l.storeId
  | 0xE8 => identityWord 1 l.storeId
  | 0xE9 => identityWord 2 l.storeId
  | 0xEA => identityWord 3 l.storeId
  | 0xEB => identityWord 0 l.genStoreId
  | 0xEC => identityWord 1 l.genStoreId
  | 0xED => identityWord 2 l.genStoreId
  | 0xEE => identityWord 3 l.genStoreId
  | 0xF0 => errorWord 0 l.lastError
  | 0xF1 => errorWord 1 l.lastError
  | 0xF2 => errorWord 2 l.lastError
  | 0xF3 => errorWord 3 l.lastError
  | _ => 0

/-- The identification words (R204). -/
def identificationWord : Nat → Word
  | 0 => 0x524E
  | 1 => 2080
  | 2 => Config.revision
  | 3 => Config.windowVersion
  | _ => 0

/-! ## Framer, window and list status (R76, R97) -/

/-- What is shown of a slot (R76). -/
def slotView : Slot → SlotView
  | .free => ⟨.free, none⟩
  | .assembling d => ⟨.assembling, some d.serial⟩
  | .sealed b => ⟨.sealed, some b.draft.serial⟩
  | .inFlight b => ⟨.inFlight, some b.draft.serial⟩

/-- The used payload bytes of the assembling block, or 0 when there is none (R76). -/
def assemblingBytes (s : State) : Nat := ((assembling s).map fun x => x.2.payload.length).getD 0

/-- The status that the Framer, the window and the Marker List show (R76, R97). -/
def statusView (s : State) : StatusView :=
  { slots := s.window.toList.map slotView
    serialCounter := s.framer.serialCounter
    usedBytes := assemblingBytes s
    due := s.framer.due
    waiting := framerWaiting s
    entryCount := s.markers.entries.length
    commitOwed := commitOwedMarkers s
    commitEpoch := s.markers.commitEpoch }

/-! ## The window as a READ frame returns it (R203 to R205) -/

/-- A word of the window as a READ frame returns it (R203 to R205); an address that names no word reads 0 (R201). The Framer,
window and list status words hold what `statusView` shows, in a layout the spec does not give: a free value. DESIGN CHOICE (log
entry 15): of the durable pair, whose layout it does not give either, 0x0070 holds the epoch, and 0x0071 the tag in bits 15 to
0. -/
def readWord (s : State) (a : Half) : Word :=
  if inWords a 0x0 4 then identificationWord a.toNat
  else if inWords a 0x10 12 then configWord a.toNat s.words
  else if inWords a 0x20 24 then journalWord a.toNat s
  else if inWords a 0x40 5 then eventWord a.toNat s
  else if inWords a 0x50 15 then s.counters[entryOf 15 a 0x50 1]
  else if a.toNat = 0x70 then s.markers.durableEpoch
  else if a.toNat = 0x71 then word s.markers.durableTag.toNat
  else if inWords a 0x60 32 then Config.statusLayout (statusView s) a
  else if inWords a 0x80 64 then markerWord (a.toNat % 4) s.markers.entries[(a.toNat - 0x80) / 4]?
  else if inWords a 0xC0 32 then spaceWord a.toNat s
  else if inWords a 0xE0 32 then linkWord a.toNat s
  else if inWords a 0x100 64 then regionWord (a.toNat % 4) s.regions[entryOf 16 a 0x100 4]
  else if inWords a 0x140 16 then triggerWord (a.toNat % 4) s.triggers[entryOf 4 a 0x140 4]
  else if inWords a 0x180 64 then extentWord (a.toNat % 2) s.extents[entryOf 32 a 0x180 2]
  else if inWords a 0x400 1024 then bufferWord (a.toNat - 0x400) s.buffer
  else 0

/-- The words of a READ frame from an address on, all of one moment; the address wraps from 65,535 to 0 (R201, R203). -/
def readWords (s : State) : Nat → Half → List Word
  | 0, _ => []
  | n + 1, a => readWord s a :: readWords s n (a + 1)

end Sys2Proof.Machine
end

