-- ==== Sys2Proof/Machine/Registers.lean ====
section
/-! DEFINITION. The Management Port: frames, the access of each word of the register window, what a WRITE frame does, what a READ
frame shifts out, and the meanings of the rows that write a register (chapter 11). -/

namespace Sys2Proof.Machine

/-! ## Access (R204) -/

/-- The access types of the window's words (R204). -/
inductive Access where
  | ro
  | rw
  | lk
  | w1c
  | wc
  | frc
  | cmd
  deriving DecidableEq, Repr

/-- The words of locked configuration (R188, R204, R205); words 2 and 3 of a trigger entry name no word. -/
def lockedWord (a : Half) : Bool :=
  inWords a 0x10 5 || inWords a 0x100 64 || (inWords a 0x140 16 && a.toNat % 4 < 2) || inWords a 0x180 64

/-- The access type of a word address; an address that names no word is RO (R204). -/
def accessOf (a : Half) : Access :=
  if a.toNat = 0x20 then .cmd
  else if lockedWord a then .lk
  else if inWords a 0x15 7 || a.toNat == 0x21 || inWords a 0x41 2 then .rw
  else if a.toNat = 0x40 then .w1c
  else if a.toNat = 0x43 then .frc
  else if inWords a 0x50 15 then .wc
  else .ro

/-! ## Locked configuration (R4, R7, R98, R117, R118, R136, R188) -/

/-- The block-size word: a value other than the four sizes is taken as 4,096 (R188). -/
def takeBlockSize (v : Word) : BlockSize :=
  if v = 512 then .b512 else if v = 1024 then .b1024 else if v = 2048 then .b2048 else .b4096

/-- The bus width word: a value other than 4 is taken as 1 (R118). -/
def takeWidth (v : Word) : Width := if v = 4 then .four else .one

/-- A divisor word, 0 to 255; what a larger value is taken as is left open (R117; log entry 12). -/
def takeDivisor (v : Word) : Byte := if v.toNat ≤ 255 then BitVec.ofNat 8 v.toNat else Config.divisorTaken v

/-- The retry limit word: a value above 7 is taken as 7 (R136). -/
def takeRetryLimit (v : Word) : BitVec 3 := BitVec.ofNat 3 (min v.toNat 7)

/-- A word of a region entry is written (R4, R205). -/
def writeRegion (k : Nat) (v : Word) (r : Region) : Region :=
  match k with
  | 0 => { r with basePage := r.basePage.extractLsb' 20 8 ++ v.extractLsb' 12 20 }
  | 1 =>
    { r with
      basePage := v.extractLsb' 0 8 ++ r.basePage.extractLsb' 0 20
      enabled := v.getLsbD 8
      policy := if v.getLsbD 9 then .shed else .stall
      coalesce := v.getLsbD 10
      label := v.extractLsb' 16 8 }
  | 2 => { r with limitPage := r.limitPage.extractLsb' 20 8 ++ v.extractLsb' 12 20 }
  | _ =>
    { r with
      limitPage := v.extractLsb' 0 8 ++ r.limitPage.extractLsb' 0 20
      stallLimit := v.extractLsb' 16 16 }

/-- A word of a trigger entry is written; the low 3 bits of the address are discarded (R7, R205). -/
def writeTrigger (k : Nat) (v : Word) (t : Trigger) : Trigger :=
  match k with
  | 0 => { t with addr := t.addr.extractLsb' 32 8 ++ v.extractLsb' 3 29 ++ 0#3 }
  | _ =>
    { t with
      addr := v.extractLsb' 0 8 ++ t.addr.extractLsb' 0 32
      enabled := v.getLsbD 8
      fenced := v.getLsbD 9 }

/-- A word of an extent entry is written (R98, R205). -/
def writeExtent (k : Nat) (v : Word) (e : Extent) : Extent :=
  match k with
  | 0 => { e with start := v }
  | _ =>
    { e with
      count := v.extractLsb' 0 24
      valid := v.getLsbD 24
      last := v.getLsbD 25
      notify := v.getLsbD 26 }

/-- The five locked configuration words (R188, R204). -/
def writeLockedWord (n : Nat) (v : Word) (c : ConfigWords) : ConfigWords :=
  match n with
  | 0x10 => { c with blockSize := takeBlockSize v }
  | 0x11 => { c with busWidth := takeWidth v }
  | 0x12 => { c with initDivisor := takeDivisor v }
  | 0x13 => { c with runDivisor := takeDivisor v }
  | 0x14 => { c with retryLimit := takeRetryLimit v }
  | _ => c

/-- A write to locked configuration that is taken (R188). -/
def setLocked (a : Half) (v : Word) (s : State) : State :=
  if inWords a 0x100 64 then
    let n := entryOf 16 a 0x100 4
    { s with regions := s.regions.set n (writeRegion (a.toNat % 4) v s.regions[n]) }
  else if inWords a 0x140 16 then
    let n := entryOf 4 a 0x140 4
    { s with triggers := s.triggers.set n (writeTrigger (a.toNat % 4) v s.triggers[n]) }
  else if inWords a 0x180 64 then
    let n := entryOf 32 a 0x180 2
    { s with extents := s.extents.set n (writeExtent (a.toNat % 2) v s.extents[n]) }
  else { s with words := writeLockedWord a.toNat v s.words }

/-- A write to locked configuration is taken in STOPPED; in any other state it is ignored and CONFIG_REFUSED is raised
(R188). -/
def lockedWrite (a : Half) (v : Word) (s : State) : State :=
  if s.journal.state = .stopped then setLocked a v s else raise .configRefused s

/-! ## Unlocked words (R10, R56, R61, R106, R134, R149, R193, R204) -/

/-- A value brought into the range from lo to hi: a smaller one is taken as lo, a larger one as hi. -/
def clamp (lo hi : Nat) (v : Word) : Nat := max lo (min v.toNat hi)

/-- The unlocked configuration words: busy limit, run idle limit, seal timer, fence limit, high and low watermark, low-space
threshold (R204). -/
def writeOpenWord (n : Nat) (v : Word) (c : ConfigWords) : ConfigWords :=
  match n with
  | 0x15 => { c with busyLimit := clamp 1 2000 v }
  | 0x16 => { c with runIdleLimit := BitVec.ofNat 16 (clamp 0 65535 v) }
  | 0x17 => { c with sealTimer := BitVec.ofNat 16 (clamp 0 65535 v) }
  | 0x18 => { c with fenceLimit := clamp 1 4000 v }
  | 0x19 => { c with highWatermark := clamp 0 65536 v }
  | 0x1A => { c with lowWatermark := clamp 0 65536 v }
  | 0x1B => { c with lowSpace := v }
  | _ => c

/-- The mask a written word gives: its low 16 bits, one for each event (R190). -/
def maskOf (v : Word) : Half := v.extractLsb' 0 16

/-- The low watermark is written: the value is used at the next comparison, and takes effect at the next change of occupancy if
occupancy stands below it (R56). -/
def writeLowWatermark (v : Word) (s : State) : State :=
  { s with
    words := writeOpenWord 0x1A v s.words
    staging.lowWritten := decide (occupiedBytes s < clamp 0 65536 v) }

/-- A write to a RW word (R193, R204). -/
def openWrite (a : Half) (v : Word) (s : State) : State :=
  if a.toNat = 0x1A then writeLowWatermark v s
  else if a.toNat = 0x21 then { s with argWord := v }
  else if a.toNat = 0x41 then setEnables (maskOf v) s
  else if a.toNat = 0x42 then setLineEnables (maskOf v) s
  else { s with words := writeOpenWord a.toNat v s.words }

/-! ## Frames (R201, R202, R204) -/

/-- A frame that is not well formed is counted (R202). -/
def badFrame (s : State) : State := bump .mgmtBadFrames 1 s

/-- A WRITE frame of 56 bits acts on its word by the word's access type; one to an RO word or to no word is a bad frame
(R202, R204). -/
def writeFrame (a : Half) (v : Word) (s : State) : State :=
  match accessOf a with
  | .ro => badFrame s
  | .rw => openWrite a v s
  | .lk => lockedWrite a v s
  | .w1c => clearFlags (maskOf v) s
  | .wc => clearCounter (entryOf 15 a 0x50 1) s
  | .frc => forceFlags (maskOf v) s
  | .cmd => commandWord v s

/-- Bits read as a number, the first bit most significant (R201). -/
def msbToNat (bits : List Bool) : Nat := bitsToNat bits.reverse

/-- A field of a frame: n bits from a place on. -/
def frameField (bits : List Bool) (at' n : Nat) : Nat := msbToNat ((bits.drop at').take n)

/-- The opcode of READ (R201). -/
def opcodeRead : Nat := 0x96
/-- The opcode of WRITE (R201). -/
def opcodeWrite : Nat := 0x69

/-- The table of R202, less the writable word that `accessOf` decides. -/
inductive FrameKind where
  | write (address : Half) (value : Word)
  | read
  | bad
  deriving DecidableEq, Repr

/-- The kind of a frame by its bits (R201, R202). -/
def frameKind (bits : List Bool) : FrameKind :=
  if 8 ≤ bits.length && frameField bits 0 8 == opcodeWrite && bits.length == 56 then
    .write (BitVec.ofNat 16 (frameField bits 8 16)) (BitVec.ofNat 32 (frameField bits 24 32))
  else if 8 ≤ bits.length && frameField bits 0 8 == opcodeRead && 56 ≤ bits.length && (bits.length - 24) % 32 == 0 then .read
  else .bad

/-- What a READ frame shifts out on SDO in n clock periods: the words from its address on, of the moment of the capture, each
most significant bit first (R201, R203). -/
def shiftOut (a : Half) (n : Nat) (s : State) : List Bool := ((readWords s ((n + 31) / 32) a).flatMap bitsOf).take n

/-- The bits that a frame's clock shifts out are noted: a frame with the opcode READ drives SDO after its last address bit,
well formed or not (R201, R202). That the capture is taken in the happening of the frame is the model's choice (log entry
31). -/
def noteShifted (bits : List Bool) (s : State) : State :=
  if frameField bits 0 8 = opcodeRead ∧ 24 < bits.length then
    { s with ports.mgmtOut :=
        s.ports.mgmtOut ++ [shiftOut (BitVec.ofNat 16 (frameField bits 8 16)) (bits.length - 24) s] }
  else s

/-- What the Bridge does with a frame: a READ frame's words have been shifted out, and when CSn rises a WRITE frame acts and a
frame that is not well formed is counted (R202). -/
def mgmtFrame (bits : List Bool) (s : State) : State :=
  let s := noteShifted bits s
  match frameKind bits with
  | .write a v => writeFrame a v s
  | .read => s
  | .bad => badFrame s

/-! ## The meanings -/

/-- MGMT_BAD_FRAME (R202). -/
def execMgmtBadFrame (bits : List Bool) (s : State) : Result := whenPort (mgmtFrame bits) s

/-- FLAG_WORD_WRITE (R192). -/
def execFlagWordWrite (value : Word) (s : State) : Result := whenPort (clearFlags (maskOf value)) s

/-- ENABLES_WRITE (R193). -/
def execEnablesWrite (value : Word) (s : State) : Result := whenPort (setEnables (maskOf value)) s

/-- LINE_ENABLES_WRITE (R193). -/
def execLineEnablesWrite (value : Word) (s : State) : Result := whenPort (setLineEnables (maskOf value)) s

/-- FORCE_WORD_WRITE (R194). -/
def execForceWordWrite (value : Word) (s : State) : Result := whenPort (forceFlags (maskOf value)) s

/-- COUNTER_CLEAR: a WRITE frame to a counter's word (R198). -/
def execCounterClear (address : Half) (value : Word) (s : State) : Result := whenPort (writeFrame address value) s

/-- LOCKED_CONFIG_WRITE: a WRITE frame to a locked word (R188). -/
def execLockedConfigWrite (address : Half) (value : Word) (s : State) : Result := whenPort (writeFrame address value) s

/-- REGISTER_WRITE: a WRITE frame to a RW word (R204). -/
def execRegisterWrite (address : Half) (value : Word) (s : State) : Result := whenPort (writeFrame address value) s

/-- CSN_RISE_AFTER_PORN: the frame that began while PORn was low ends ignored (R202). -/
def execCsnRiseAfterPorn (s : State) : Result :=
  .next (if s.pornLow then s else { s with mgmtIgnore := false })

end Sys2Proof.Machine
end

