-- ==== Sys2Proof/Machine/Dispatch.lean ====
section
/-! DEFINITION. The meaning of every command: one arm for each constructor of Instr. -/

namespace Sys2Proof.Machine

/-- The effect of a command on everything but the queue. -/
def exec (i : Instr) (s : State) : Host.Outcome State Fault Refusal :=
  match i with
  | .pornFall => Sys2Proof.Machine.execPornFall s
  | .pornRise csnLow => Sys2Proof.Machine.execPornRise csnLow s
  | .upstreamWriteTaken w => Sys2Proof.Machine.execUpstreamWriteTaken w s
  | .upstreamReadTaken r => Sys2Proof.Machine.execUpstreamReadTaken r s
  | .downstreamWriteResponse id answer => Sys2Proof.Machine.execDownstreamWriteResponse id answer s
  | .downstreamReadResponse id data status => Sys2Proof.Machine.execDownstreamReadResponse id data status s
  | .stallTimeout => Sys2Proof.Machine.execStallTimeout s
  | .markerWaitExpiry => Sys2Proof.Machine.execMarkerWaitExpiry s
  | .fenceLimitExpiry => Sys2Proof.Machine.execFenceLimitExpiry s
  | .admitPendingVoid => Sys2Proof.Machine.execAdmitPendingVoid s
  | .admitHeldData => Sys2Proof.Machine.execAdmitHeldData s
  | .admitHeldMark => Sys2Proof.Machine.execAdmitHeldMark s
  | .admitFinalMark => Sys2Proof.Machine.execAdmitFinalMark s
  | .marknRequest => Sys2Proof.Machine.execMarknRequest s
  | .framerCopy => Sys2Proof.Machine.execFramerCopy s
  | .sealTimerExpiry => Sys2Proof.Machine.execSealTimerExpiry s
  | .linkIdlePeriodEnd => Sys2Proof.Machine.execLinkIdlePeriodEnd s
  | .resetSettleEnd => Sys2Proof.Machine.execResetSettleEnd s
  | .commandFrameEnd => Sys2Proof.Machine.execCommandFrameEnd s
  | .commandGapEnd => Sys2Proof.Machine.execCommandGapEnd s
  | .respTimeout => Sys2Proof.Machine.execRespTimeout s
  | .identResponse bits => Sys2Proof.Machine.execIdentResponse bits s
  | .pollIntervalEnd => Sys2Proof.Machine.execPollIntervalEnd s
  | .initTimeout => Sys2Proof.Machine.execInitTimeout s
  | .setupResponse bits => Sys2Proof.Machine.execSetupResponse bits s
  | .statusResponse bits => Sys2Proof.Machine.execStatusResponse bits s
  | .writeRunResponse bits => Sys2Proof.Machine.execWriteRunResponse bits s
  | .endRunResponse bits => Sys2Proof.Machine.execEndRunResponse bits s
  | .commitResponse bits => Sys2Proof.Machine.execCommitResponse bits s
  | .readOneResponse bits => Sys2Proof.Machine.execReadOneResponse bits s
  | .dataGapEnd => Sys2Proof.Machine.execDataGapEnd s
  | .blockOutEnd => Sys2Proof.Machine.execBlockOutEnd s
  | .accept => Sys2Proof.Machine.execAccept s
  | .crcBad => Sys2Proof.Machine.execCrcBad s
  | .writeFail => Sys2Proof.Machine.execWriteFail s
  | .range => Sys2Proof.Machine.execRange s
  | .tokenInvalid code endBit => Sys2Proof.Machine.execTokenInvalid code endBit s
  | .tokenTimeout => Sys2Proof.Machine.execTokenTimeout s
  | .busyEnd => Sys2Proof.Machine.execBusyEnd s
  | .busyTimeout => Sys2Proof.Machine.execBusyTimeout s
  | .runIdleExpiry => Sys2Proof.Machine.execRunIdleExpiry s
  | .readBlockReceived b => Sys2Proof.Machine.execReadBlockReceived b s
  | .readTimeout => Sys2Proof.Machine.execReadTimeout s
  | .mgmtBadFrame bits => Sys2Proof.Machine.execMgmtBadFrame bits s
  | .start placement generation => Sys2Proof.Machine.execStart placement generation s
  | .stop => Sys2Proof.Machine.execStop s
  | .halt => Sys2Proof.Machine.execHalt s
  | .softReset => Sys2Proof.Machine.execSoftReset s
  | .pause => Sys2Proof.Machine.execPause s
  | .resume => Sys2Proof.Machine.execResume s
  | .mark tag => Sys2Proof.Machine.execMark tag s
  | .reclaim => Sys2Proof.Machine.execReclaim s
  | .readback => Sys2Proof.Machine.execReadback s
  | .recover => Sys2Proof.Machine.execRecover s
  | .badCommandCode code => Sys2Proof.Machine.execBadCommandCode code s
  | .flagWordWrite value => Sys2Proof.Machine.execFlagWordWrite value s
  | .enablesWrite value => Sys2Proof.Machine.execEnablesWrite value s
  | .lineEnablesWrite value => Sys2Proof.Machine.execLineEnablesWrite value s
  | .forceWordWrite value => Sys2Proof.Machine.execForceWordWrite value s
  | .counterClear address value => Sys2Proof.Machine.execCounterClear address value s
  | .lockedConfigWrite address value => Sys2Proof.Machine.execLockedConfigWrite address value s
  | .registerWrite address value => Sys2Proof.Machine.execRegisterWrite address value s
  | .csnRiseAfterPorn => Sys2Proof.Machine.execCsnRiseAfterPorn s

end Sys2Proof.Machine
end

