-- ==== Sys2Proof/Machine/Quiet.lean ====
section
/-! DEFINITION. What a step on an empty queue does: one microsecond of quiet passes (DESIGN CHOICE, log entry 5). -/

namespace Sys2Proof.Machine

/-- The running value of a timer rises by one, up to its limit. -/
def Timer.advance (t : Timer) : Timer := { t with elapsed := min (t.elapsed + 1) t.limit }

/-- One microsecond passes with no happening: the running values of the hold timer (R10), the seal timer (R61) and the idle
timer (R149) rise; nothing else changes. -/
def tick (s : State) : State :=
  { s with
    held := s.held.map fun h => { h with timer := h.timer.map Timer.advance }
    framer.sealTimer := s.framer.sealTimer.map Timer.advance
    link.idle := s.link.idle.map Timer.advance }

end Sys2Proof.Machine
end

