-- ==== Sys2Proof/Machine/Step.lean ====
section
/-! DEFINITION. The step of the Bridge: the command at the front of the queue, or a microsecond of quiet. -/

namespace Sys2Proof.Machine

/-- The front command runs with the rest of the queue in the state; on an empty queue one microsecond passes (log entry 5). -/
def step (s : State) : Host.Outcome State Fault Refusal :=
  match s.pending with
  | [] => .next (tick s)
  | c :: rest => exec c { s with pending := rest }

/-- The state with the command a word of the opcode table spells at the front of the queue, unchanged where it spells
none. -/
def State.withFetchWord (s : State) (nbits w : Nat) : State :=
  match decodeTableWord nbits w with
  | some c => { s with pending := c :: s.pending }
  | none => s

end Sys2Proof.Machine
end

