-- ==== Sys2Proof/Safety.lean ====
section
/-! DEFINITION. What a good state is and what a command may leave as it was, in the terms the statements use. -/

namespace Sys2Proof.Machine

/-! ## Views of the state that most commands leave alone -/

/-- What only PORn, the rows that write registers, the upstream port, the responses and a block in change: pins, tables,
words, masks, the readback buffer, the record of the upstream side, and the queue. -/
structure Settings where
  pornLow     : Bool
  mgmtIgnore  : Bool
  regions     : Vector Region 16
  triggers    : Vector Trigger 4
  extents     : Vector Extent 32
  words       : ConfigWords
  argWord     : Word
  enables     : Half
  lineEnables : Half
  buffer      : Memory
  taken       : List Txn
  upstream    : List Response
  pending     : List Instr
  deriving DecidableEq, Repr

/-- The settings of a state. -/
def settings (s : State) : Settings :=
  { pornLow := s.pornLow, mgmtIgnore := s.mgmtIgnore, regions := s.regions, triggers := s.triggers, extents := s.extents,
    words := s.words, argWord := s.argWord, enables := s.events.enables, lineEnables := s.events.lineEnables,
    buffer := s.buffer, taken := s.ports.taken, upstream := s.ports.upstream, pending := s.pending }

/-- The path of a write: the held-write slot, the Response Tracking Queue, and what has left the downstream port. -/
structure Path where
  held       : Option Held
  rtq        : Rtq
  downstream : List Txn
  deriving DecidableEq, Repr

/-- The path of a state. -/
def path (s : State) : Path := { held := s.held, rtq := s.rtq, downstream := s.ports.downstream }

/-- The locked configuration (R188): region, trigger and extent entries, block size, bus width, divisors, retry limit. -/
structure Locked where
  regions     : Vector Region 16
  triggers    : Vector Trigger 4
  extents     : Vector Extent 32
  blockSize   : BlockSize
  busWidth    : Width
  initDivisor : Byte
  runDivisor  : Byte
  retryLimit  : BitVec 3
  deriving DecidableEq, Repr

/-- The locked configuration of a state. -/
def locked (s : State) : Locked :=
  { regions := s.regions, triggers := s.triggers, extents := s.extents, blockSize := s.words.blockSize,
    busWidth := s.words.busWidth, initDivisor := s.words.initDivisor, runDivisor := s.words.runDivisor,
    retryLimit := s.words.retryLimit }

/-! ## What events and counters become -/

/-- The flags after the causes of events are met: each flag whose enable is set becomes set, no other changes (R191). -/
def flagsWith (es : List Event) (s : State) : Half :=
  es.foldl (fun m e => m ||| (eventBit e &&& s.events.enables)) s.events.flags

/-- The counters after increases, each saturating (R198). -/
def countersWith (cs : List (Counter × Nat)) (s : State) : Vector Word 15 :=
  cs.foldl (fun v p => v.set (counterIndex p.1) (saturate v[counterIndex p.1] p.2)) s.counters

/-- The event a rise of staging occupancy from one state to the next meets (R56). -/
def riseEvents (s t : State) : List Event :=
  if s.staging.highArmed && decide (s.words.highWatermark < occupiedBytes t) then [.stagingHigh] else []

/-- The STAGING_HIGH armed state after a rise of occupancy from one state to the next (R56): an armed one is disarmed above the
high watermark; a disarmed one is armed only by a low watermark written while its condition stood, still below it. That one rise does not do both is the model's choice (log entry
35). -/
def armedAfterRise (s t : State) : Bool :=
  if s.staging.highArmed then !decide (s.words.highWatermark < occupiedBytes t)
  else s.staging.lowWritten && decide (occupiedBytes t < s.words.lowWatermark)

/-- The length of an upstream transaction, for the two rows that carry one. -/
def transferLengthOf : Instr → Option Nat
  | .upstreamWriteTaken w => some (writeLength w)
  | .upstreamReadTaken r => some r.len
  | _ => none

/-- A command carries a transaction of a length that the memory ports carry, or none (00). -/
def transferOk (c : Instr) : Bool := (transferLengthOf c).all lengthInRange

/-! ## What becomes of a write, and of its response -/

/-- A write leaves the downstream port and the held-write slot: its ordinal is fixed, and an entry that waits for its ordinal
takes it (R11, R18, R19). -/
def withForwarded (w : WriteTxn) (s : State) : State :=
  { s with
    held := none
    rtq.forwardCount := s.rtq.forwardCount + 1
    rtq.tracking := s.rtq.tracking.map fun e => { e with ordinal := some (e.ordinal.getD s.rtq.forwardCount) }
    ports.downstream := s.ports.downstream ++ [.write w] }

/-- A tracking entry is made for a write, its ordinal still to come (R19). -/
def withEntry (w : WriteTxn) (seq : Word) (ended : Bool) (s : State) : State :=
  { s with rtq.tracking := s.rtq.tracking ++ [⟨none, seq, w.addr, w.lanes.length, ended⟩] }

/-- A write is held for a reason against a limit in microseconds; a limit of 0 has no timer (R10). -/
def withHeld (w : WriteTxn) (h : Hold) (limit : Nat) (s : State) : State :=
  { s with held := some ⟨w, h, if limit = 0 then none else some ⟨limit, 0⟩⟩ }

/-- The DATA record's fields formed from one write of a region (R30, R31). -/
def formedFields (w : WriteTxn) (region : Region) : DataFields :=
  { label := region.label, addr := w.addr, length := w.lanes.length, coalesced := false,
    mask := if w.lanes.all (·.strobe) then none else some (strobeMask w),
    data := w.lanes.map fun l => if l.strobe then l.data else 0 }

/-- The size of a write's own DATA record: 16, 32 more for a mask, and its length rounded up to a multiple of 8 (R24). -/
def formedSize (w : WriteTxn) : Nat := 16 + (if w.lanes.all (·.strobe) then 0 else 32) + (w.lanes.length + 7) / 8 * 8

/-- A DATA record enters staging at the tail with the next sequence number; its write is counted (R33), and it is the open
record if it has no mask and its region coalesces (R37). Of the flags only STAGING_HIGH may rise (R56). -/
def withData (w : WriteTxn) (r : Fin 16) (f : DataFields) (s : State) : State :=
  let seq := s.capture.seqCounter
  let v : State := { s with staging.queue := s.staging.queue ++ [⟨⟨seq, .data f⟩, 0⟩] }
  { v with
    staging.highArmed := armedAfterRise s v
    staging.lowWritten := false
    capture := ⟨seq + 1, s.capture.epochCounter,
      if f.mask.isNone && s.regions[r].coalesce then some ⟨seq, r, f.addr, f.length⟩ else none, none⟩
    counters := countersWith [(.capturedWrites, 1), (.capturedBytes, w.lanes.length)] s
    events.flags := flagsWith (riseEvents s v) s }

/-- A MARK record enters staging with the next sequence number and closes the epoch, and its marker joins the list, RECORDED
(R27, R79); at its top value the epoch counter stays (R28). -/
def withMark (tag : Half) (src : Source) (fenced final : Bool) (s : State) : State :=
  let seq := s.capture.seqCounter
  let epoch := s.capture.epochCounter
  let v : State := { s with staging.queue := s.staging.queue ++ [⟨⟨seq, .mark ⟨epoch, tag, src, fenced, final⟩⟩, 0⟩] }
  { v with
    staging.highArmed := armedAfterRise s v
    staging.lowWritten := false
    capture := ⟨seq + 1, if epoch = 4294967295 then epoch else epoch + 1, none, none⟩
    markers.entries := s.markers.entries ++ [⟨epoch, tag, src, fenced, final, seq, none, .recorded⟩]
    events.flags := flagsWith (riseEvents s v) s }

/-- MARKS_LOST counts a lost marker request and MARK_LOST is raised (R94). -/
def withMarkLost (s : State) : State :=
  { s with events.flags := flagsWith [.markLost] s, counters := countersWith [(.marksLost, 1)] s }

/-- The marker of a trigger write enters, with the tag of its first two bytes (R8, R35); the write is held for FENCE against
the fence limit if the trigger is fenced, and forwarded if it is not (R12, R16, R91). -/
def withMarked (w : WriteTxn) (i : Fin 4) (s : State) : State :=
  let m := withMark (writeTag w) (.trigger i) s.triggers[i].fenced false s
  if s.triggers[i].fenced then withHeld w (.fence s.capture.epochCounter) (s.words.fenceLimit * 1000) m
  else withForwarded w m

/-- A trigger write begins its marker wait (R12, R15, R28, R80). At the top of the epoch counter its request is lost and it is
forwarded. With the list full it is held for MARKER; with a free entry but a pending VOID or no room it is held for ADMISSION;
either against the stall limit of its region, or the fence limit if it lies in none. Otherwise its marker enters. That it
enters in this happening is the model's reading (log entry 16). -/
def withMarkerWait (w : WriteTxn) (region : Option (Fin 16)) (i : Fin 4) (s : State) : State :=
  let limit := match region with
    | some r => s.regions[r].stallLimit.toNat
    | none => s.words.fenceLimit * 1000
  if s.capture.epochCounter = 4294967295 then withForwarded w (withMarkLost s)
  else if 16 ≤ s.markers.entries.length then withHeld w (.marker i) limit s
  else if s.rtq.voids = [] ∧ 80 ≤ freeBytes s ∧ 3 ≤ freeSlots s then withMarked w i s
  else withHeld w (.admitMark i) limit s

/-- A captured write that has its outcome is forwarded, or goes to its marker wait if it matches a trigger (R11, R12). -/
def withOutcome (w : WriteTxn) (r : Fin 16) (trig : Option (Fin 4)) (s : State) : State :=
  match trig with
  | none => withForwarded w s
  | some i => withMarkerWait w (some r) i s

/-- A captured write whose record is in staging takes a tracking entry under the record's number and goes on to its outcome; with
all 32 entries in use it is held for TRACKING, without a limit (R11, R14, R19). -/
def withTracked (w : WriteTxn) (seq : Word) (r : Fin 16) (trig : Option (Fin 4)) (s : State) : State :=
  if s.rtq.tracking.length < 32 then withOutcome w r trig (withEntry w seq false s)
  else withHeld w (.tracking seq r trig false) 0 s

/-- A lost write is accounted (R34, R51 to R53): counted, and with no GAP record open a GAP record enters with the next sequence
number, GAP_RECORDS counts it and GAP_OPENED is raised; with one open, which is the tail, that record is extended and no
number is used. -/
def withLost (w : WriteTxn) (label : Byte) (s : State) : State :=
  let n := w.lanes.length
  let stop := w.addr + BitVec.ofNat 40 n
  match s.capture.openGap with
  | none =>
    let seq := s.capture.seqCounter
    let g : GapFields := { label := label, mixed := false, firstAddr := w.addr, endAddr := stop, count := 1,
                           bytes := BitVec.ofNat 32 n }
    let v : State := { s with staging.queue := s.staging.queue ++ [⟨⟨seq, .gap g⟩, 0⟩] }
    { v with
      staging.highArmed := armedAfterRise s v
      staging.lowWritten := false
      capture := ⟨seq + 1, s.capture.epochCounter, none, some ⟨seq, g⟩⟩
      counters := countersWith [(.lostWrites, 1), (.lostBytes, n), (.gapRecords, 1)] s
      events.flags := flagsWith (riseEvents s v ++ [.gapOpened]) s }
  | some o =>
    let g : GapFields := { o.fields with
      mixed := o.fields.mixed || label != o.fields.label
      endAddr := stop
      count := BitVec.ofNat 16 (min (o.fields.count.toNat + 1) 65535)
      bytes := BitVec.ofNat 32 (min (o.fields.bytes.toNat + n) 4294967295) }
    { s with
      staging.queue := s.staging.queue.dropLast ++
        (s.staging.queue.getLast?.map fun e => { e with record := ⟨o.seq, .gap g⟩ }).toList
      capture.openGap := some ⟨o.seq, g⟩
      counters := countersWith [(.lostWrites, 1), (.lostBytes, n)] s }

/-- A response consumes the oldest tracking entry. OKAY raises nothing; ERROR forms a pending VOID or is late, by the table of
R21, with R22 where all four slots are taken. That an entry without its ended flag in STOPPED is late is the model's reading (log
entry 23). -/
def withConsumed (a : WriteAnswer) (e : TrackEntry) (rest : List TrackEntry) (s : State) : State :=
  let forms := capturing s || (drainingLike s && s.staging.finalMark != .entered)
  match a with
  | .okay => { s with rtq.tracking := rest }
  | .error =>
    if e.ended = false ∧ forms = true ∧ s.rtq.voids.length < 4 then
      { s with rtq.tracking := rest, rtq.voids := s.rtq.voids ++ [⟨e.seq, e.addr, e.length⟩] }
    else
      { s with
        rtq.tracking := rest
        events.flags := flagsWith [.voidLate] s
        counters := countersWith [(.voidsLate, 1)] s }

/-- A write response is counted and returned upstream (R2, R18). -/
def withReturned (id : Byte) (a : WriteAnswer) (s : State) : State :=
  { s with rtq.answerCount := s.rtq.answerCount + 1, ports.upstream := s.ports.upstream ++ [.write id a] }

/-- The write does not merge: no record is open, or one of the five conditions of R39 fails. -/
def standsAlone (w : WriteTxn) (r : Fin 16) (s : State) : Prop :=
  ∀ o, s.capture.openRec = some o →
    o.region ≠ r ∨ w.addr.toNat ≠ o.addr.toNat + o.length ∨ w.lanes.all (·.strobe) = false ∨
      256 < o.length + w.lanes.length ∨ s.rtq.voids ≠ [] ∨
      freeBytes s < (o.length + w.lanes.length + 7) / 8 * 8 - (o.length + 7) / 8 * 8 + 64

/-- The write is captured by a region as it is taken: PORn is high, no write is held, it crosses no page, the journal captures,
and the region wins (R5, R6, R9). -/
def capturedBy (w : WriteTxn) (r : Fin 16) (s : State) : Prop :=
  1 ≤ w.lanes.length ∧ w.lanes.length ≤ 256 ∧ s.pornLow = false ∧ s.held = none ∧ crosses w = false ∧ capturing s = true ∧
    winningRegion s.regions w = some r

/-! ## What becomes of a block, and of markers that become DURABLE -/

/-- A slot's block is sealed: BLOCKS_SEALED counts it, the seal timer stops and no seal is due (R65, R68). -/
def withSealed (i : Fin 8) (b : Block) (s : State) : State :=
  { s with
    window := s.window.set i (.sealed b)
    framer.sealTimer := none
    framer.due := .none
    counters := countersWith [(.blocksSealed, 1)] s }

/-- A block with a whole record more (R60, R63). -/
def withWhole (e : Staged) (d : Draft) : Draft :=
  { d with
    starts := d.starts + 1
    firstSeq := if d.starts = 0 then e.record.seq else d.firstSeq
    payload := d.payload ++ recordBytes e.record }

/-- The open record, the last in staging, is taken out: staging is empty and nothing is open (R38, R54, R63). The fall of
occupancy re-arms STAGING_HIGH below the low watermark (R56). -/
def withOpenTaken (s : State) : State :=
  { s with
    staging.queue := []
    staging.highArmed := s.staging.highArmed || decide (0 < s.words.lowWatermark)
    staging.lowWritten := false
    capture.openRec := none
    capture.openGap := none }

/-- What markers that became DURABLE do to the held write: one of them that is fenced ends the fence that awaits its epoch (R89,
R91), and a freed list entry moves a wait for MARKER to ADMISSION, its timer running on (R15, R80). -/
def withReleased (gone : List Marker) (s : State) : State :=
  match s.held with
  | some ⟨w, .fence e, _⟩ => if gone.any fun m => m.fenced && m.epoch == e then withForwarded w s else s
  | some ⟨w, .marker i, tm⟩ =>
    if s.markers.entries.length < 16 then { s with held := some ⟨w, .admitMark i, tm⟩ } else s
  | _ => s

/-! ## What the link has out as it is cut -/

/-- The mark of what the lines cut short: there while a block or a frame is on its way out (R128, R169). -/
def cutMark (s : State) : List LinkOut :=
  match s.link.phase with
  | .blockOut _ _ | .frame _ => [.cut]
  | _ => []

/-! ## What the Link Engine does with a frame and at FAULT -/

/-- The row of a short response to a command, where the command has one (R121, R123). -/
def responseRow (bits : BitVec 64) : LinkCmd → Option Instr
  | .setup => some (.setupResponse bits)
  | .status => some (.statusResponse bits)
  | .writeRun => some (.writeRunResponse bits)
  | .endRun => some (.endRunResponse bits)
  | .commit => some (.commitResponse bits)
  | .readOne => some (.readOneResponse bits)
  | .resetStore | .ident => none

/-- A happening in the response window of a command that is a transport error of kind k, for the tag of the frame (R124). -/
def transportFailure (c : LinkCmd) (tag : Byte) (k : LinkErr) (h : Instr) : Prop :=
  (h = .respTimeout ∧ k = .respTimeout) ∨
    (∃ bits, responseRow bits c = some h ∧ shortTransport c tag bits = some k) ∨
    (c = .ident ∧ ∃ bits, h = .identResponse bits ∧ longTransport .ident tag bits = some k)

/-- A command frame goes out with the tag counter's value as its tag and an argument, and the counter advances (R119,
R120). -/
def withFrame (c : LinkCmd) (arg : BitVec 40) (s : State) : State :=
  { s with
    link.tagCounter := s.link.tagCounter + 1
    link.sentTag := s.link.tagCounter
    link.phase := .frame c
    ports.linkOut := s.ports.linkOut ++ [.frame (commandFrame c s.link.tagCounter arg)] }

/-- An initialisation begins on a running link: the configuration is read, the clock goes to the init divisor and the width
to 1, and RESET_STORE is sent (R136). -/
def withInit (s : State) : State :=
  withFrame .resetStore 0
    { s with
      link.state := .init
      link.run := none
      link.idle := none
      link.consecutive := 0
      link.initExpired := false
      link.initValues :=
        ⟨s.words.initDivisor, s.words.runDivisor, s.words.busWidth, s.words.blockSize, s.words.retryLimit,
          s.words.busyLimit⟩
      link.clockOn := true
      link.divisor := s.words.initDivisor
      link.width := .one }

/-- An initialisation begins (R136, R168): with RESET_STORE on a running link, with the clock and 80 idle periods from OFF,
and after the settle time while an abandonment is still settling. That RESET_STORE waits for no gap is the model's choice (log
entry 9). -/
def begunInit (s : State) : State :=
  let u : State :=
    { s with
      link.state := .init
      link.run := none
      link.idle := none
      link.consecutive := 0
      link.initExpired := false }
  if s.link.abandoning then u
  else if s.link.state = .off then
    { u with
      link.initValues :=
        ⟨s.words.initDivisor, s.words.runDivisor, s.words.busWidth, s.words.blockSize, s.words.retryLimit,
          s.words.busyLimit⟩
      link.clockOn := true
      link.divisor := s.words.initDivisor
      link.width := .one
      link.phase := .idlePeriod }
  else withInit s

/-- An error is recorded: the last-error detail, LINK_ERRORS and LINK_ERROR (R135, R158). -/
def withError (d : ErrorDetail) (s : State) : State :=
  { s with
    link.lastError := some d
    counters := countersWith [(.linkErrors, 1)] s
    events.flags := flagsWith [.linkError] s }

/-- Whether a FAULT of the link makes the running command fail, by the table of R184. -/
def faultFailsCommand (j : Journal) : Bool := j.slot.status == .running && j.state != .active

/-- The table of R184: state, resume state and slot record after a FAULT of the link. -/
def journalAfterFault (j : Journal) : Journal :=
  let reason : Reason := match j.state with
    | .starting | .faulted | .stopped => .initFail
    | .active | .pausing | .paused | .draining => .linkFault
  { j with
    state := if j.state = .stopped then .stopped else .faulted
    resume := match j.state with
      | .starting | .active => some .active
      | .pausing | .paused => some .paused
      | .draining => some .draining
      | .faulted | .stopped => j.resume
    slot := if faultFailsCommand j then
        { j.slot with status := .failed, reason := some reason, r0 := 0, r1 := 0 }
      else j.slot }

/-- An error is recorded and the link goes to FAULT: the block in flight returns to SEALED, run, recovery flag, idle timer,
readback request, commit epoch and recorded head are cleared, LINK_FAULT is raised, and the journal follows R184 (R157). -/
def withFault (d : ErrorDetail) (s : State) : State :=
  { s with
    window := match inFlight s with
      | some (i, b) => s.window.set i (.sealed b)
      | none => s.window
    link.state := .fault
    link.phase := .rest true true
    link.run := none
    link.recovery := false
    link.idle := none
    link.readback := none
    link.lastError := some d
    markers.commitEpoch := none
    space.recordedHead := none
    journal := journalAfterFault s.journal
    counters := countersWith [(.linkErrors, 1)] s
    events.flags :=
      flagsWith ([.linkError, .linkFault] ++ (if faultFailsCommand s.journal then [.commandDone] else [])) s }

/-- The running command ends with a status, a reason and a result (R175). -/
def endedSlot (status : CmdStatus) (reason : Option Reason) (r0 : Word) (s : State) : CmdRecord :=
  { s.journal.slot with status := status, reason := reason, r0 := r0, r1 := 0 }

/-- A record of the command now taken, which receives the next command number (R171, R175). -/
def newRecord (code : BitVec 4) (status : CmdStatus) (reason : Option Reason) (r0 r1 : Word) (s : State) : CmdRecord :=
  ⟨s.journal.number + 1, code, status, reason, r0, r1⟩

/-- A command is answered in the slot record, no other command running: the command number advances and COMMAND_DONE is
raised (R174, R175). -/
def withAnswer (code : BitVec 4) (status : CmdStatus) (reason : Option Reason) (r0 r1 : Word) (s : State) : State :=
  { s with
    journal.number := s.journal.number + 1
    journal.slot := newRecord code status reason r0 r1 s
    events.flags := flagsWith [.commandDone] s }

/-- The running command as the overtaken record keeps it: ABANDONED, without a reason or results (R175). -/
def overtakenRecord (s : State) : Option CmdRecord :=
  if s.journal.slot.status = .running then
    some { s.journal.slot with status := .abandoned, reason := none, r0 := 0, r1 := 0 }
  else s.journal.overtaken

/-- The command is taken and becomes RUNNING: the command number advances and the slot record shows it (R174, R175). -/
def withRunning (code : BitVec 4) (s : State) : State :=
  { s with
    journal.number := s.journal.number + 1
    journal.slot := newRecord code .running none 0 0 s }

/-- The rows that the management port brings (chapters 9 and 11). -/
def managementRow : Instr → Bool
  | .mgmtBadFrame _ | .start _ _ | .stop | .halt | .softReset | .pause | .resume | .mark _ | .reclaim | .readback | .recover
  | .badCommandCode _ | .flagWordWrite _ | .enablesWrite _ | .lineEnablesWrite _ | .forceWordWrite _ | .counterClear _ _
  | .lockedConfigWrite _ _ | .registerWrite _ _ => true
  | _ => false

/-- The management port acts on the frame: PORn is high and it is not ignoring the frame in progress (R202). -/
def portOpen (s : State) : Bool := !s.pornLow && !s.mgmtIgnore

/-- No command is RUNNING (R174). -/
def slotFreed (s : State) : Bool := s.journal.slot.status != .running

/-- The journal is ACTIVE, PAUSING or DRAINING (R143). -/
def sends (s : State) : Bool := [.active, .pausing, .draining].contains s.journal.state

/-! ## Bytes and words, laid out as the spec gives them -/

/-- n bytes of a number, the least significant first. -/
def bytesLE (n v : Nat) : List Byte := (List.range n).map fun k => BitVec.ofNat 8 (v / 256 ^ k)

/-- n bytes of zero. -/
def zeros (n : Nat) : List Byte := List.replicate n 0

/-- A block size in bytes (R59). -/
def sizeShown : BlockSize → Nat
  | .b512 => 512
  | .b1024 => 1024
  | .b2048 => 2048
  | .b4096 => 4096

/-- The source of a marker (R206). -/
def sourceShown : Source → BitVec 3
  | .trigger n => BitVec.ofNat 3 n.val
  | .pin => 4
  | .command => 5

/-- A seal cause (R207). -/
def causeShown : SealCause → Byte
  | .full => 1
  | .mark => 2
  | .timer => 3
  | .pause => 4
  | .final => 5

/-- The bytes of a record (R206): kind, flags, a 2-byte field, the sequence number, and what the kind has from byte 8 on. -/
def recordLayout (r : Record) : List Byte :=
  let flags (b0 b1 : Bool) : Byte := 0#6 ++ BitVec.ofBool b1 ++ BitVec.ofBool b0
  let top (kind flags : Byte) (n : Nat) : List Byte := [kind, flags] ++ bytesLE 2 n ++ bytesLE 4 r.seq.toNat
  match r.body with
  | .gen f =>
    top 1 (flags (f.placement == .fromOrigin) false) f.generation.toNat ++
      bytesLE 2 (sizeShown f.blockSize) ++ bytesLE 2 f.regionSet.toNat ++ [f.fencedSet ++ f.triggerSet] ++ zeros 19
  | .data f =>
    top 2 (flags f.mask.isSome f.coalesced) f.length ++ bytesLE 5 f.addr.toNat ++ [f.label, 0, 0] ++
      (f.mask.map fun m => (List.range 32).map fun k => m.extractLsb' (8 * k) 8).getD [] ++
      f.data ++ zeros ((f.length + 7) / 8 * 8 - f.length)
  | .gap f =>
    top 3 (flags f.mixed false) f.count.toNat ++ bytesLE 5 f.firstAddr.toNat ++ [f.label] ++
      bytesLE 5 f.endAddr.toNat ++ [0] ++ bytesLE 4 f.bytes.toNat
  | .mark f =>
    top 4 (flags f.fenced f.final) f.tag.toNat ++ bytesLE 4 f.epoch.toNat ++
      [0#5 ++ sourceShown f.source] ++ zeros 3
  | .void f => top 5 0 f.length ++ bytesLE 4 f.voided.toNat ++ bytesLE 5 f.addr.toNat ++ zeros 7

/-- Header and payload of a block of B bytes (R207): 28 header bytes, and the payload, zero after the used bytes. -/
def frontLayout (size : Nat) (b : Block) : List Byte :=
  bytesLE 2 b.draft.generation.toNat ++ bytesLE 2 b.draft.lead ++ bytesLE 4 b.draft.serial.toNat ++
    bytesLE 2 b.draft.payload.length ++ bytesLE 2 b.draft.starts ++ bytesLE 4 b.draft.firstSeq.toNat ++
    bytesLE 4 b.epoch.toNat ++ [causeShown b.cause] ++ zeros 7 ++ b.draft.payload ++ zeros (size - 32 - b.draft.payload.length)

/-- The remainder of bits, taken in order, divided by a polynomial without its top term, from an initial value: before each step
the next bit meets the top bit of the register, so that the bits are followed by as many zero bits as the register has. That the
spec means this usual remainder is the model's reading (log entry 40). -/
def remainder {n : Nat} (poly init : BitVec n) (bits : List Bool) : BitVec n :=
  bits.foldl (fun r b => if (r.msb ^^ b) = true then (r <<< 1) ^^^ poly else r <<< 1) init

/-- A journal state as shown (R205). -/
def journalShown : JournalState → BitVec 3
  | .stopped => 0
  | .starting => 1
  | .active => 2
  | .pausing => 3
  | .paused => 4
  | .draining => 5
  | .faulted => 6

/-- The resume state as shown: absent 0, otherwise the value of the state it names (R205). -/
def resumeShown : Option Resume → BitVec 3
  | none => 0
  | some .active => 2
  | some .paused => 4
  | some .draining => 5

/-- A link state as shown, numbered in the order of the table of R143 (R205). -/
def linkShown : LinkState → BitVec 4
  | .off => 0
  | .init => 1
  | .ready => 2
  | .opening => 3
  | .inRun => 4
  | .sending => 5
  | .tokenWait => 6
  | .programming => 7
  | .ending => 8
  | .committing => 9
  | .reading => 10
  | .recovering => 11
  | .fault => 12

/-- A command code of the link (R208). -/
def codeShown : LinkCmd → BitVec 4
  | .resetStore => 0x0
  | .ident => 0x2
  | .setup => 0x3
  | .writeRun => 0x5
  | .endRun => 0x6
  | .commit => 0x9
  | .status => 0xA
  | .readOne => 0xC

/-- The configuration words 0x0010 to 0x001B (R204). -/
def configShown (c : ConfigWords) : List Word :=
  [BitVec.ofNat 32 (sizeShown c.blockSize), if c.busWidth = .four then 4 else 1,
   0#24 ++ c.initDivisor, 0#24 ++ c.runDivisor, 0#29 ++ c.retryLimit, BitVec.ofNat 32 c.busyLimit, 0#16 ++ c.runIdleLimit,
   0#16 ++ c.sealTimer, BitVec.ofNat 32 c.fenceLimit, BitVec.ofNat 32 c.highWatermark, BitVec.ofNat 32 c.lowWatermark,
   c.lowSpace]

/-- The status of a command record (R204). -/
def statusShown : CmdStatus → BitVec 3
  | .idle => 0
  | .running => 1
  | .done => 2
  | .refused => 3
  | .failed => 4
  | .abandoned => 5

/-- The reason of a command record (R204); 0 without a reason (the model's choice, log entry 37). -/
def reasonShown : Option Reason → BitVec 4
  | none => 0
  | some .busy => 1
  | some .badState => 2
  | some .badArgument => 3
  | some .extentInvalid => 4
  | some .listFull => 5
  | some .range => 6
  | some .linkFault => 8
  | some .initFail => 9
  | some .crcMismatch => 10
  | some .readError => 11

/-- The state of a marker entry (R205). -/
def markerStateShown : MarkerState → BitVec 2
  | .recorded => 1
  | .sealed => 2
  | .accepted => 3

/-- An error kind, numbered in the order of the table of R135 (R205). -/
def kindShown : LinkErr → BitVec 5
  | .respTimeout => 1
  | .respCrc => 2
  | .respCode => 3
  | .respTag => 4
  | .respStatus => 5
  | .respState => 6
  | .tokenTimeout => 7
  | .tokenInvalid => 8
  | .tokenCrcBad => 9
  | .tokenWriteFail => 10
  | .tokenRange => 11
  | .busyTimeout => 12
  | .readTimeout => 13
  | .readCrc => 14
  | .initTimeout => 15
  | .identMismatch => 16

/-- The outcome of an error (R205). -/
def outcomeShown : ErrOutcome → BitVec 3
  | .retry => 1
  | .recovery => 2
  | .reinit => 3
  | .fault => 4
  | .failed => 5

/-- A command record's three words: the record itself and its results (R204, R205); 0 of a record that is empty. -/
def recordShown : Option CmdRecord → List Word
  | none => [0, 0, 0]
  | some r => [0#12 ++ reasonShown r.reason ++ 0#1 ++ statusShown r.status ++ r.code ++ r.number, r.r0, r.r1]

/-- The hold reason and whether an awaited epoch is held, and that epoch (R205); 0 for an epoch that is not held (the model's
choice, log entry 37). -/
def holdShown : Option Held → List Word
  | none => [0, 0]
  | some h => match h.hold with
    | .admitData _ _ _ | .admitMark _ => [1, 0]
    | .tracking _ _ _ _ => [2, 0]
    | .marker _ => [3, 0]
    | .fence e => [0x104, e]

/-- The four words of a Marker List entry (R205); 0 without an entry, and without a block serial (the model's choice, log entry
37). -/
def markerShown : Option Marker → List Word
  | none => [0, 0, 0, 0]
  | some m =>
    [m.epoch,
     0#3 ++ BitVec.ofBool m.serial.isSome ++ 0#2 ++ markerStateShown m.state ++ 0#2 ++ BitVec.ofBool m.final ++
       BitVec.ofBool m.fenced ++ 0#1 ++ sourceShown m.source ++ m.tag,
     m.recSeq, m.serial.getD 0]

/-- A position word (R205). -/
def positionShown (p : Pos) : Word := 0#3 ++ BitVec.ofNat 5 p.entry ++ BitVec.ofNat 24 p.offset

/-- The words 0x00C0 to 0x00CC (R205); 0 for a recorded head that is absent (the model's choice, log entry 37). -/
def spaceShown (s : State) : List Word :=
  let p := s.space
  let place (q : Pos) : List Word := [positionShown q, storeAddress p.chain q]
  place p.head ++ place p.boundary ++ place p.tail ++
    [BitVec.ofNat 32 p.used, BitVec.ofNat 32 p.durableUsed, BitVec.ofNat 32 (freeBlocks s), BitVec.ofNat 32 (capacity s),
     positionShown p.origin,
     match p.recordedHead with
     | none => 0
     | some q => 1#1 ++ 0#2 ++ BitVec.ofNat 5 q.entry ++ BitVec.ofNat 24 q.offset,
     0#30 ++ BitVec.ofBool p.lowArmed ++ BitVec.ofBool (commitOwedSpace s)]

/-- The four words of a store identity (R205); 0 of an empty one (the model's choice, log entry 37). -/
def identityShown : Option Identity → List Word
  | none => [0, 0, 0, 0]
  | some i =>
    [i.capacity, 1#1 ++ 0#23 ++ i.maxWidth ++ i.sizes, i.serial.extractLsb' 0 32, i.serial.extractLsb' 32 32]

/-- The words 0x00E0 to 0x00EE of the Link Engine (R205); 0 of an absent run, idle timer or status (the model's choice, log entry
37). -/
def linkWordsShown (l : Link) : List Word :=
  let counted := (l.run.map fun r => decide (r.count < 256)).getD false
  [l.tagCounter ++ 0#4 ++ BitVec.ofNat 4 l.attempts ++ 0#2 ++ BitVec.ofBool counted ++ BitVec.ofBool l.run.isSome ++ 0#2 ++
     BitVec.ofBool l.recovery ++ BitVec.ofBool l.pauseReq ++ 0#4 ++ linkShown l.state] ++
    (match l.run with
      | none => [0, 0, 0]
      | some r => [r.start, BitVec.ofNat 32 r.count, BitVec.ofNat 32 r.remaining]) ++
    [match l.idle with
      | none => 0
      | some x => BitVec.ofNat 32 x.elapsed] ++
    (match l.lastStatus with
      | none => [0, 0]
      | some t => [t.status, 1#1 ++ 0#19 ++ codeShown t.cmd ++ t.code]) ++
    identityShown l.storeId ++ identityShown l.genStoreId

/-- The four words of the last-error detail (R205); 0 of an empty one, and of a serial or an address that is absent (the model's
choice, log entry 37). -/
def errorShown : Option ErrorDetail → List Word
  | none => [0, 0, 0, 0]
  | some d =>
    [1#1 ++ 0#7 ++ d.tag ++ 0#4 ++ codeShown d.cmd ++ 0#3 ++ kindShown d.kind,
     d.serial.getD 0, d.addr.getD 0,
     0#6 ++ BitVec.ofBool d.addr.isSome ++ BitVec.ofBool d.serial.isSome ++ 0#5 ++ outcomeShown d.outcome ++ 0#1 ++
       journalShown d.journal ++ linkShown d.link ++ 0#4 ++ BitVec.ofNat 4 d.attempt]

/-- The words of a region entry (R205). -/
def regionShown (r : Region) : List Word :=
  [r.basePage.extractLsb' 0 20 ++ 0#12,
   0#8 ++ r.label ++ 0#5 ++ BitVec.ofBool r.coalesce ++ BitVec.ofBool (r.policy == .shed) ++ BitVec.ofBool r.enabled ++
     r.basePage.extractLsb' 20 8,
   r.limitPage.extractLsb' 0 20 ++ 0#12,
   r.stallLimit ++ 0#8 ++ r.limitPage.extractLsb' 20 8]

/-- The words of a trigger entry, the two that name no word among them (R205). -/
def triggerShown (t : Trigger) : List Word :=
  [t.addr.extractLsb' 0 32, 0#22 ++ BitVec.ofBool t.fenced ++ BitVec.ofBool t.enabled ++ t.addr.extractLsb' 32 8, 0, 0]

/-- The words of an extent entry (R205). -/
def extentShown (e : Extent) : List Word :=
  [e.start, 0#5 ++ BitVec.ofBool e.notify ++ BitVec.ofBool e.last ++ BitVec.ofBool e.valid ++ e.count]

/-! ## Invariants -/

/-- The held write as a transaction on its way (R1, R10). -/
def heldTxn (s : State) : List Txn :=
  match s.held with
  | some h => [.write h.write]
  | none => []

/-- The transactions that left downstream, followed by the held write, are those taken upstream, in order and unchanged (R1,
R2); while PORn is low nothing is held (R3). -/
def inOrder (s : State) : Bool :=
  s.ports.taken == s.ports.downstream ++ heldTxn s && (!s.pornLow || s.held.isNone)

/-- The writes among the transactions that left downstream. -/
def writesForwarded (s : State) : Nat := s.ports.downstream.countP fun t => match t with
  | .write _ => true
  | .read _ => false

/-- The write responses among those returned upstream. -/
def writesAnswered (s : State) : Nat := s.ports.upstream.countP fun r => match r with
  | .write _ _ => true
  | .read _ _ _ => false

/-- The two write counts of the RTQ are the numbers of writes forwarded and answered, modulo 2^32 (R18). -/
def countsAgree (s : State) : Bool :=
  s.rtq.forwardCount == BitVec.ofNat 32 (writesForwarded s) && s.rtq.answerCount == BitVec.ofNat 32 (writesAnswered s)

/-- The bounded lists: 16 marker entries (R77), 32 tracking entries (R19), 4 pending VOIDs (R22). -/
def withinBounds (s : State) : Bool :=
  s.markers.entries.length ≤ 16 && s.rtq.tracking.length ≤ 32 && s.rtq.voids.length ≤ 4

/-- The blocks behind the durable boundary are among the blocks in use (R101). -/
def durableWithinUsed (s : State) : Bool := s.space.durableUsed ≤ s.space.used

/-- At most one slot of the window is ASSEMBLING (R61, R70). -/
def oneAssembling (s : State) : Bool :=
  (List.finRange 8).countP (fun i => (slotDraft s.window[i]).isSome) ≤ 1

/-- Staging keeps to its bounds (R46): at most 65,536 bytes and 1,024 records, with 40 bytes and a slot always free, and 64
bytes and 2 slots free while no GAP record is open (R47). The open DATA or GAP record is the tail (R45). -/
def stagingOk (s : State) : Bool :=
  occupiedBytes s ≤ 65496 && s.staging.queue.length ≤ 1023 &&
    (s.capture.openGap.isSome || (occupiedBytes s ≤ 65472 && s.staging.queue.length ≤ 1022)) &&
    (match s.capture.openRec, s.capture.openGap, (s.staging.queue.getLast?.map fun e => e.record.body : Option Body) with
      | none, none, _ => true
      | some o, none, some (.data f) => f.length == o.length
      | none, some _, some (.gap _) => true
      | _, _, _ => false)

/-- A block is on its way to the store, or its token is awaited. -/
def airborne (s : State) : Bool :=
  match s.link.phase with
  | .blockOut _ _ | .token _ _ => true
  | _ => false

/-- The slots that are IN_FLIGHT. -/
def slotsInFlight (s : State) : Nat := (List.finRange 8).countP fun i => (slotInFlight s.window[i]).isSome

/-- Used is at most the capacity (R101), and below it while a block is on its way, which is in a sending state, the link SENDING
or in TOKEN_WAIT (R143); at most one slot is IN_FLIGHT (R71), and none while no block is on its way (R70, R72). -/
def flightOk (s : State) : Bool :=
  s.space.used ≤ capacity s && slotsInFlight s ≤ (if airborne s then 1 else 0) &&
    (!airborne s ||
      (sends s && (s.link.state == .sending || s.link.state == .tokenWait) && decide (s.space.used < capacity s)))

/-- The readback buffer keeps its canonical form. -/
def bufferOk (s : State) : Bool := s.buffer.wf

/-- The invariants that every command keeps. -/
def safe (s : State) : Bool :=
  inOrder s && countsAgree s && withinBounds s && durableWithinUsed s && stagingOk s && flightOk s && oneAssembling s &&
    bufferOk s

end Sys2Proof.Machine
end

