-- ==== Sys2Proof/WellFormed.lean ====
section
/-! DEFINITION. Which commands are well formed: the operands that the spec lets a row carry. -/

namespace Sys2Proof

open Machine

/-- The length of a transaction is 1 to 256 bytes (00, Interfaces at a Glance). -/
def transferWellFormed (n : Nat) : Bool := lengthInRange n

/-- A response begins with its start bit, which is 0 (R123, R124). -/
def responseWellFormed (bits : BitVec 64) : Bool := !bits.getLsbD 63

/-- A long response begins with its start bit, which is 0 (R123, R124). -/
def longResponseWellFormed (bits : BitVec 160) : Bool := !bits.getLsbD 159

/-- A block in carries one CRC-16 and one end bit for each line of a width, and a block's bytes (R59, R118, R131). -/
def blockInWellFormed (b : BlockIn) : Bool :=
  [1, 4].contains b.crcs.length && b.ends.length == b.crcs.length && [512, 1024, 2048, 4096].contains b.bytes.length

/-- The code and end bit make an invalid token (R133). -/
def tokenWellFormed (code : BitVec 4) (endBit : Bool) : Bool := readToken code endBit == .invalid

/-- The bits are not a well-formed frame: no READ frame, and no WRITE frame to a writable word (R202). -/
def badFrameWellFormed (bits : List Bool) : Bool :=
  match frameKind bits with
  | .write a _ => accessOf a == .ro
  | .read => false
  | .bad => true

/-- Code 0 and codes 11 to 15 name no command (R204). -/
def badCodeWellFormed (code : BitVec 4) : Bool := code == 0 || 11 ≤ code.toNat

/-- The word of a WRITE frame has an access type (R204). -/
def addressWellFormed (access : Access) (address : Half) : Bool := accessOf address == access

/-- A command is well formed when its operands are ones its row can carry. -/
def Instr.wellFormed (i : Instr) : Bool :=
  match i with
  | .upstreamWriteTaken w => transferWellFormed (writeLength w)
  | .upstreamReadTaken r => transferWellFormed r.len
  | .identResponse bits => longResponseWellFormed bits
  | .setupResponse bits => responseWellFormed bits
  | .statusResponse bits => responseWellFormed bits
  | .writeRunResponse bits => responseWellFormed bits
  | .endRunResponse bits => responseWellFormed bits
  | .commitResponse bits => responseWellFormed bits
  | .readOneResponse bits => responseWellFormed bits
  | .tokenInvalid code endBit => tokenWellFormed code endBit
  | .readBlockReceived b => blockInWellFormed b
  | .mgmtBadFrame bits => badFrameWellFormed bits
  | .badCommandCode code => badCodeWellFormed code
  | .counterClear address _ => addressWellFormed .wc address
  | .lockedConfigWrite address _ => addressWellFormed .lk address
  | .registerWrite address _ => addressWellFormed .rw address
  | .pornFall | .pornRise _ | .downstreamWriteResponse _ _ | .downstreamReadResponse _ _ _ => true
  | .stallTimeout | .markerWaitExpiry | .fenceLimitExpiry => true
  | .admitPendingVoid | .admitHeldData | .admitHeldMark | .admitFinalMark | .marknRequest => true
  | .framerCopy | .sealTimerExpiry => true
  | .linkIdlePeriodEnd | .resetSettleEnd | .commandFrameEnd | .commandGapEnd | .respTimeout | .pollIntervalEnd => true
  | .initTimeout | .dataGapEnd | .blockOutEnd | .accept | .crcBad | .writeFail | .range | .tokenTimeout => true
  | .busyEnd | .busyTimeout | .runIdleExpiry | .readTimeout => true
  | .start _ _ | .stop | .halt | .softReset | .pause | .resume | .mark _ | .reclaim | .readback | .recover => true
  | .flagWordWrite _ | .enablesWrite _ | .lineEnablesWrite _ | .forceWordWrite _ | .csnRiseAfterPorn => true

end Sys2Proof
end

