-- ==== Sys2Proof/Certificates/Slice0/Obligations.lean ====
section
/-! DEFINITION. The statements for the provers: what a step does, the invariants it keeps, and what each command does and
leaves alone. -/

open Sys2Proof Sys2Proof.Machine

/-! ## The machine -/

/-- A step of a state with a command at the front of its queue is that command's meaning with the rest of the queue. -/
def Obligations.StepRunsFrontCommand : Prop :=
  ∀ (c : Instr) (rest : List Instr) (s : State), step { s with pending := c :: rest } = exec c { s with pending := rest }

/-- The model's choice (log entry 5): a step on an empty queue is one microsecond of quiet, in which the running values of
the hold timer, the seal timer and the idle timer rise by one, up to their limits, and nothing else changes. -/
def Obligations.QuietStepAdvancesTimers : Prop :=
  ∀ s : State, s.pending = [] →
    let up (x : Option Timer) : Option Timer := x.map fun x => { x with elapsed := min (x.elapsed + 1) x.limit }
    step s = .next
      { s with
        held := s.held.map fun h => { h with timer := up h.timer }
        framer.sealTimer := up s.framer.sealTimer
        link.idle := up s.link.idle }

/-- The model's choice (log entry 4): the one stop is an upstream transaction of a length the memory ports do not carry;
every other command answers a next state. -/
def Obligations.OnlyTransferLengthStops : Prop :=
  ∀ (c : Instr) (s : State),
    (transferOk c = true → ∃ t, exec c s = .next t) ∧ (transferOk c = false → exec c s = .fault .transferLength)

/-- No command changes the queue of the commands that wait. -/
def Obligations.CommandsKeepQueue : Prop :=
  ∀ (c : Instr) (s t : State), exec c s = .next t → t.pending = s.pending

/-! ## Invariants -/

/-- R1 and R2 over every step: what left downstream, followed by the held write, is what was taken upstream, in order and
unchanged; while PORn is low nothing is held (R3). What passed the ports is the model's own record (log entry 2). -/
def Obligations.StepKeepsOrder : Prop :=
  ∀ s t : State, inOrder s = true → step s = .next t → inOrder t = true

/-- R18 over every step: the forward count and the answer count are the numbers of writes forwarded and of write responses
returned, modulo 2^32. What passed the ports is the model's own record (log entry 2). -/
def Obligations.StepKeepsCounts : Prop :=
  ∀ s t : State, countsAgree s = true → step s = .next t → countsAgree t = true

/-- R19, R22, R45 to R47, R71, R77, R101, R109 and R111 over every step: at most 32 tracking entries, 4 pending VOIDs and 16
marker entries; staging within 65,536 bytes and 1,024 records with 40 bytes and a slot always free, the open DATA or GAP record
its tail; the blocks behind the durable boundary among the blocks in use, and these at most the capacity; at most one slot
IN_FLIGHT. -/
def Obligations.StepKeepsBounds : Prop :=
  ∀ s t : State, step s = .next t →
    (withinBounds s = true → withinBounds t = true) ∧ (durableWithinUsed s = true → durableWithinUsed t = true) ∧
    (stagingOk s = true → stagingOk t = true) ∧ (flightOk s = true → flightOk t = true)

/-- R71 over every step: at most one slot of the window is ASSEMBLING. -/
def Obligations.StepKeepsOneAssembling : Prop :=
  ∀ s t : State, oneAssembling s = true → step s = .next t → oneAssembling t = true

/-- The readback buffer keeps its canonical form over every step. The form is the model's choice of how the buffer is held.
-/
def Obligations.StepKeepsBufferForm : Prop :=
  ∀ s t : State, bufferOk s = true → step s = .next t → bufferOk t = true

/-- The state after reset meets every invariant, and holds the values the spec gives for POR: the tables of R4, R7 and R98, the
configuration words of R204, the counts and lists of R18, R19 and R22, the counters of R25, staging of R45 and R56, the Framer
of R61, the windows of R75, the list of R77, the positions and counts of R101 and the armed state of R106, the link's state of
R142 and R169, Journal Control of R171, the masks and counters of R190 and R199, and the readback buffer of R131. -/
def Obligations.ResetIsSafe : Prop :=
  let s := State.reset
  safe s = true ∧ s.held = none ∧
    (∀ i : Fin 16, s.regions[i].enabled = false ∧ s.regions[i].basePage = 0 ∧ s.regions[i].limitPage = 0 ∧
      s.regions[i].policy = .stall ∧ s.regions[i].stallLimit = 0 ∧ s.regions[i].coalesce = false ∧ s.regions[i].label = 0) ∧
    (∀ i : Fin 4, s.triggers[i].enabled = false ∧ s.triggers[i].addr = 0 ∧ s.triggers[i].fenced = false) ∧
    (∀ i : Fin 32, s.extents[i].valid = false ∧ s.extents[i].start = 0 ∧ s.extents[i].count = 0 ∧
      s.extents[i].last = false ∧ s.extents[i].notify = false) ∧
    s.words = ⟨.b4096, .four, 249, 1, 3, 250, 1000, 0, 100, 49152, 16384, 64⟩ ∧ s.argWord = 0 ∧
    s.rtq = ⟨0, 0, [], []⟩ ∧ s.capture = ⟨0, 1, none, none⟩ ∧ s.staging = ⟨[], true, .none, false⟩ ∧
    s.framer.generation = 0 ∧ s.framer.blockSize = .b4096 ∧ s.framer.serialCounter = 0 ∧ s.framer.framingEpoch = 1 ∧
    s.framer.due = .none ∧ s.framer.sealTimer = none ∧ assembling s = none ∧
    s.markers = ⟨[], 0, 0, none⟩ ∧ (∀ i : Fin 8, s.window[i] = .free) ∧
    s.space.head = ⟨0, 0⟩ ∧ s.space.boundary = ⟨0, 0⟩ ∧ s.space.tail = ⟨0, 0⟩ ∧ s.space.origin = ⟨0, 0⟩ ∧
    s.space.used = 0 ∧ s.space.durableUsed = 0 ∧ capacity s = 0 ∧ s.space.recordedHead = none ∧ s.space.lowArmed = true ∧
    s.link.state = .off ∧ s.link.clockOn = false ∧ s.link.tagCounter = 0 ∧ s.link.lastStatus = none ∧
    s.link.idle = none ∧ s.link.storeId = none ∧ s.link.genStoreId = none ∧ s.link.run = none ∧
    s.link.attempts = 0 ∧ s.link.sendCount = 0 ∧
    s.link.pauseReq = false ∧ s.link.recovery = false ∧ s.link.readback = none ∧ s.link.lastError = none ∧
    s.journal.state = .stopped ∧ s.journal.resume = none ∧ s.journal.generation = 0 ∧ s.journal.number = 0 ∧
    s.journal.slot.status = .idle ∧ s.journal.side = none ∧ s.journal.overtaken = none ∧ s.events = ⟨0, 0, 0⟩ ∧
    (∀ c : Counter, counterValue c s = 0) ∧ (∀ a : Nat, memoryRead s.buffer a = 0)

/-! ## Rules of the whole machine -/

/-- R188: while the journal is not STOPPED, no command but PORN_FALL changes locked configuration. -/
def Obligations.LockedConfigurationKept : Prop :=
  ∀ (c : Instr) (s t : State), s.journal.state ≠ .stopped → c ≠ .pornFall → exec c s = .next t → locked t = locked s

/-- R191 and R194: a flag that a command leaves set was set before, or its enable was. -/
def Obligations.FlagsNeedEnables : Prop :=
  ∀ (c : Instr) (s t : State) (e : Event), exec c s = .next t →
    t.events.flags.getLsbD (eventNumber e) = true →
      s.events.flags.getLsbD (eventNumber e) = true ∨ s.events.enables.getLsbD (eventNumber e) = true

/-- R104: of the well-formed commands only ACCEPT moves the head, besides START, which may set it, and PORN_FALL, which
resets it. -/
def Obligations.HeadMovesOnlyOnAccept : Prop :=
  ∀ (c : Instr) (s t : State), c.wellFormed = true → exec c s = .next t → t.space.head ≠ s.space.head →
    c = .accept ∨ c = .pornFall ∨ ∃ p g, c = .start p g

/-- R131: only a block in fills the readback buffer, and POR clears it; every other command leaves every byte as it was. -/
def Obligations.BufferChangesOnlyByBlockIn : Prop :=
  ∀ (c : Instr) (s t : State), exec c s = .next t → c ≠ .pornFall → (∀ b, c ≠ .readBlockReceived b) →
    ∀ a : Nat, memoryRead t.buffer a = memoryRead s.buffer a

/-- R193: of the well-formed commands, the masks change only at a write to them, whose low 16 bits replace the mask, and at
POR. -/
def Obligations.MasksChangeOnlyByWrites : Prop :=
  ∀ (c : Instr) (s t : State), c.wellFormed = true → exec c s = .next t → c ≠ .pornFall →
    (t.events.enables ≠ s.events.enables →
      ∃ v : Word, t.events.enables = v.setWidth 16 ∧ (c = .enablesWrite v ∨ c = .registerWrite 0x41 v)) ∧
    (t.events.lineEnables ≠ s.events.lineEnables →
      ∃ v : Word, t.events.lineEnables = v.setWidth 16 ∧ (c = .lineEnablesWrite v ∨ c = .registerWrite 0x42 v))

/-! ## The memory ports (chapters 1 to 3) -/

/-- R3, R17, R169, R202: PORn falls and rises. At the fall a held write is forwarded with its place in the count, every block is
in its POR state, and a block or frame on its way out is cut without RESET_STORE; the two write counts, the record of the ports
and the queue stay. At the rise the management port ignores a frame in progress until CSn rises. That no RESET_STORE is sent in
FAULT or any other link state, where R157 and R75 say otherwise, is the model's choice (log entry 41). What the fields that the
spec gives no reset value become is its choice too (log entries 1 and 20), and that the row of the rise carries the level of CSn
(log entry 26); the record of the ports is the model's own (log entry 2). -/
def Obligations.PornFallsAndRises : Prop :=
  ∀ s : State,
    (s.pornLow = false →
      exec .pornFall s = .next
        { State.reset with
          pornLow := true
          rtq := ⟨s.rtq.forwardCount + (if s.held.isSome then 1 else 0), s.rtq.answerCount, [], []⟩
          ports := { s.ports with
                     downstream := s.ports.downstream ++ heldTxn s, linkOut := s.ports.linkOut ++ cutMark s }
          pending := s.pending }) ∧
    (∀ csnLow, s.pornLow = true → exec (.pornRise csnLow) s = .next { s with pornLow := false, mgmtIgnore := csnLow }) ∧
    (s.pornLow = false → exec .csnRiseAfterPorn s = .next { s with mgmtIgnore := false })

/-- R96 whole: what POR leaves of the Marker List, MARKS_LOST and the flags, and that MARKn is not sampled while PORn is low, in
whatever state. -/
def Obligations.MarkerListAfterPor : Prop :=
  (∀ s : State, s.pornLow = false →
    ∃ t, exec .pornFall s = .next t ∧ t.markers = ⟨[], 0, 0, none⟩ ∧ counterValue .marksLost t = 0 ∧
      t.events.flags = 0 ∧ t.events.enables = 0 ∧ t.pornLow = true) ∧
  (∀ u : State, u.pornLow = true → exec .marknRequest u = .next u)

/-- R1, R2: a read is forwarded unchanged when no write is held, and is not taken while one is; a read response is returned
unchanged at any time. That a transaction presented while the slot is occupied changes nothing is the model's choice (log
entry 3). -/
def Obligations.ReadsPassThrough : Prop :=
  ∀ s : State,
    (∀ r : ReadTxn, 1 ≤ r.len → r.len ≤ 256 → s.held = none →
      exec (.upstreamReadTaken r) s = .next
        { s with
          ports.taken := s.ports.taken ++ [.read r]
          ports.downstream := s.ports.downstream ++ [.read r] }) ∧
    (∀ r : ReadTxn, 1 ≤ r.len → r.len ≤ 256 → s.held.isSome = true → exec (.upstreamReadTaken r) s = .next s) ∧
    (∀ id data status, exec (.downstreamReadResponse id data status) s = .next
      { s with ports.upstream := s.ports.upstream ++ [.read id data status] })

/-- R3, R6, R9: a write that is not captured is forwarded and fixes its ordinal, and nothing else happens but one count of
CROSSING for a write that crosses a 4 KiB boundary while PORn is high. An entry that waits for its ordinal takes it (R19).
While a write is held, none is taken (R1). That a write presented meanwhile changes nothing is the model's choice (log entry
3). -/
def Obligations.UncapturedWriteForwarded : Prop :=
  ∀ (w : WriteTxn) (s : State), 1 ≤ w.lanes.length → w.lanes.length ≤ 256 →
    (s.held = none →
      s.pornLow = true ∨ crosses w = true ∨ capturing s = false ∨
        (winningRegion s.regions w = none ∧ matchingTrigger s.triggers w = none) →
      exec (.upstreamWriteTaken w) s = .next
        { s with
          rtq.forwardCount := s.rtq.forwardCount + 1
          rtq.tracking := s.rtq.tracking.map fun e =>
            { e with ordinal := some (e.ordinal.getD s.rtq.forwardCount) }
          ports.taken := s.ports.taken ++ [.write w]
          ports.downstream := s.ports.downstream ++ [.write w]
          counters := countersWith (if crosses w && !s.pornLow then [(.crossing, 1)] else []) s }) ∧
    (s.held.isSome = true → s.pornLow = false → exec (.upstreamWriteTaken w) s = .next s)

/-- R11, R12, R19, R30 to R33, R37 to R39: a write of a region that does not merge, whether no record is open or one of the five
conditions of R39 fails, becomes a DATA record of its own at the tail while staging has its room: it takes the next sequence
number, closes the open record and the open GAP, is counted, takes a tracking entry with its ordinal, and is forwarded, or goes
to its marker wait if it matches a trigger. It is the open record if it is fully strobed and its region coalesces. Of the flags
its entry raises STAGING_HIGH alone (R56). That a marker wait begins in this happening (log entry 16), that the addresses of R39
are compared without wrap (log entry 22), and that one rise either disarms or re-arms STAGING_HIGH (log entry 35), are the
model's choices. -/
def Obligations.CapturedWriteRecorded : Prop :=
  ∀ (w : WriteTxn) (r : Fin 16) (s : State), capturedBy w r s → standsAlone w r s →
    s.rtq.voids = [] → s.rtq.tracking.length < 32 → formedSize w + 64 ≤ freeBytes s → 3 ≤ freeSlots s →
    let seq := s.capture.seqCounter
    let u := withEntry w seq false
      (withData w r (formedFields w s.regions[r]) { s with ports.taken := s.ports.taken ++ [.write w] })
    exec (.upstreamWriteTaken w) s = .next (withOutcome w r (matchingTrigger s.triggers w) u) ∧
    (matchingTrigger s.triggers w = none → ∃ t, exec (.upstreamWriteTaken w) s = .next t ∧
      t.staging.queue = s.staging.queue ++ [⟨⟨seq, .data (formedFields w s.regions[r])⟩, 0⟩] ∧
      t.capture = ⟨seq + 1, s.capture.epochCounter,
        if w.lanes.all (·.strobe) && s.regions[r].coalesce then some ⟨seq, r, w.addr, w.lanes.length⟩ else none, none⟩ ∧
      t.rtq.forwardCount = s.rtq.forwardCount + 1 ∧
      t.rtq.tracking =
        (s.rtq.tracking.map fun e => { e with ordinal := some (e.ordinal.getD s.rtq.forwardCount) }) ++
          [⟨some s.rtq.forwardCount, seq, w.addr, w.lanes.length, false⟩] ∧
      t.counters = countersWith [(.capturedWrites, 1), (.capturedBytes, w.lanes.length)] s)

/-- R12, R14, R39 to R41: a fully strobed write of the open record's region that begins where the record ends, with a combined
length of at most 256 and room for the growth, is merged: the tail record keeps its number, address and label, its length and
data grow and COALESCED is set; no record enters. The write is counted and tracked under the record's number, or held for
TRACKING while all 32 entries are in use, and is forwarded, or goes to its marker wait if it matches a trigger. That the addresses
are compared without wrap (log entry 22), that a marker wait begins in this happening (log entry 16), and that one rise either
disarms or re-arms STAGING_HIGH (log entry 35), are the model's choices. -/
def Obligations.ContiguousWriteMerged : Prop :=
  ∀ (w : WriteTxn) (r : Fin 16) (o : OpenRec) (q : List Staged) (f : DataFields) (n : Nat) (s : State), capturedBy w r s →
    s.capture.openRec = some o → s.staging.queue = q ++ [⟨⟨o.seq, .data f⟩, n⟩] →
    o.region = r → w.addr.toNat = o.addr.toNat + o.length → w.lanes.all (·.strobe) = true →
    o.length + w.lanes.length ≤ 256 → s.rtq.voids = [] →
    let growth := (o.length + w.lanes.length + 7) / 8 * 8 - (o.length + 7) / 8 * 8
    growth + 64 ≤ freeBytes s →
    let v : State := { s with staging.queue := q ++
      [⟨⟨o.seq, .data { f with length := f.length + w.lanes.length, coalesced := true,
                               data := f.data ++ w.lanes.map fun l => l.data }⟩, n⟩] }
    let u : State :=
      { v with
        ports.taken := s.ports.taken ++ [.write w]
        capture.openRec := some { o with length := o.length + w.lanes.length }
        staging.highArmed := if growth = 0 then s.staging.highArmed else armedAfterRise s v
        staging.lowWritten := if growth = 0 then s.staging.lowWritten else false
        events.flags := if growth = 0 then s.events.flags else flagsWith (riseEvents s v) s
        counters := countersWith [(.capturedWrites, 1), (.capturedBytes, w.lanes.length)] s }
    exec (.upstreamWriteTaken w) s = .next (withTracked w o.seq r (matchingTrigger s.triggers w) u)

/-- R12, R34, R48, R51 to R53: a write of a SHED region that does not merge and is refused room, behind a pending VOID or without
its bytes or slots, takes no tracking entry and is counted as lost and accounted: with no GAP record open, a GAP record with its
values enters with the next sequence number, closes the open record, GAP_RECORDS counts it and GAP_OPENED is raised; with one
open at the tail, that record is extended and no number is used. The write is forwarded, or goes to its marker wait if it
matches a trigger. That a marker wait begins in this happening (log entry 16), that the addresses of R39 are compared without wrap
(log entry 22), and that one rise either disarms or re-arms STAGING_HIGH (log entry 35), are the model's choices. -/
def Obligations.ShedWriteLost : Prop :=
  ∀ (w : WriteTxn) (r : Fin 16) (s : State), capturedBy w r s → standsAlone w r s → s.regions[r].policy = .shed →
    s.rtq.voids ≠ [] ∨ freeBytes s < formedSize w + 64 ∨ freeSlots s < 3 →
    let n := w.lanes.length
    let stop := w.addr + BitVec.ofNat 40 n
    let u := withLost w s.regions[r].label { s with ports.taken := s.ports.taken ++ [.write w] }
    exec (.upstreamWriteTaken w) s = .next (withOutcome w r (matchingTrigger s.triggers w) u) ∧
    (s.capture.openGap = none →
      let g : GapFields := { label := s.regions[r].label, mixed := false, firstAddr := w.addr, endAddr := stop, count := 1,
                             bytes := BitVec.ofNat 32 n }
      u.staging.queue = s.staging.queue ++ [⟨⟨s.capture.seqCounter, .gap g⟩, 0⟩] ∧
        u.capture = ⟨s.capture.seqCounter + 1, s.capture.epochCounter, none, some ⟨s.capture.seqCounter, g⟩⟩ ∧
        u.counters = countersWith [(.lostWrites, 1), (.lostBytes, n), (.gapRecords, 1)] s ∧
        u.events.flags = flagsWith (riseEvents s u ++ [.gapOpened]) s) ∧
    (∀ (o : OpenGap) (q : List Staged) (e : Staged), s.capture.openGap = some o → s.staging.queue = q ++ [e] →
      let g : GapFields := { o.fields with
        mixed := o.fields.mixed || s.regions[r].label != o.fields.label, endAddr := stop,
        count := BitVec.ofNat 16 (min (o.fields.count.toNat + 1) 65535),
        bytes := BitVec.ofNat 32 (min (o.fields.bytes.toNat + n) 4294967295) }
      u.staging.queue = q ++ [{ e with record := ⟨o.seq, .gap g⟩ }] ∧
        u.capture = { s.capture with openGap := some ⟨o.seq, g⟩ } ∧
        u.counters = countersWith [(.lostWrites, 1), (.lostBytes, n)] s ∧ u.events.flags = s.events.flags)

/-- R10, R13, R48, R50: a write of a STALL region that does not merge and is refused room, behind a pending VOID or without its
bytes or slots, waits in the slot for ADMISSION with its formed record, and a timer that runs against the region's stall limit
unless that is 0; nothing else changes. R14: a captured write whose record has entered and that finds all 32 tracking entries
in use waits there for TRACKING, without a limit. That the addresses of R39 are compared without wrap (log entry 22), and that one
rise either disarms or re-arms STAGING_HIGH (log entry 35), are the model's choices. -/
def Obligations.WritesHeldForRoomOrTracking : Prop :=
  ∀ (w : WriteTxn) (r : Fin 16) (s : State), capturedBy w r s → standsAlone w r s →
    let trig := matchingTrigger s.triggers w
    let f := formedFields w s.regions[r]
    let taken : State := { s with ports.taken := s.ports.taken ++ [.write w] }
    (s.regions[r].policy = .stall → s.rtq.voids ≠ [] ∨ freeBytes s < formedSize w + 64 ∨ freeSlots s < 3 →
      exec (.upstreamWriteTaken w) s = .next
        { taken with
          held := some
            ⟨w, .admitData r trig f,
              if s.regions[r].stallLimit = 0 then none else some ⟨s.regions[r].stallLimit.toNat, 0⟩⟩ }) ∧
    (s.rtq.voids = [] → 32 ≤ s.rtq.tracking.length → formedSize w + 64 ≤ freeBytes s → 3 ≤ freeSlots s →
      exec (.upstreamWriteTaken w) s = .next
        { withData w r f taken with held := some ⟨w, .tracking s.capture.seqCounter r trig false, none⟩ })

/-- R8, R12, R15, R16, R27, R28, R35, R79, R80: a trigger write in no region begins its marker wait against the fence limit. At
the top of the epoch counter its marker is lost, with MARKS_LOST and MARK_LOST, and it is forwarded. With the list full it is
held for MARKER; with a free entry, but a pending VOID or no room, for ADMISSION of its MARK record; nothing is made. Otherwise
its MARK record enters with the next sequence number and closes the epoch, its marker joins the list RECORDED with the tag of
its first two bytes, and the write is forwarded, or held for FENCE against the fence limit if the trigger is fenced. That the
marker enters in the happening of the write is the model's reading (log entry 16), and that one rise either disarms or re-arms
STAGING_HIGH its choice (log entry 35). -/
def Obligations.TriggerWriteMarked : Prop :=
  ∀ (w : WriteTxn) (i : Fin 4) (s : State),
    1 ≤ w.lanes.length → w.lanes.length ≤ 256 → s.pornLow = false → s.held = none → crosses w = false →
    capturing s = true → winningRegion s.regions w = none → matchingTrigger s.triggers w = some i →
    let taken : State := { s with ports.taken := s.ports.taken ++ [.write w] }
    let fenced := s.triggers[i].fenced
    let limit := s.words.fenceLimit * 1000
    let timer := if limit = 0 then none else some ⟨limit, 0⟩
    let room := s.rtq.voids = [] ∧ 80 ≤ freeBytes s ∧ 3 ≤ freeSlots s
    (s.capture.epochCounter = 4294967295 →
      exec (.upstreamWriteTaken w) s = .next (withForwarded w (withMarkLost taken))) ∧
    (s.capture.epochCounter ≠ 4294967295 →
      (16 ≤ s.markers.entries.length →
        exec (.upstreamWriteTaken w) s = .next { taken with held := some ⟨w, .marker i, timer⟩ }) ∧
      (s.markers.entries.length < 16 → ¬ room →
        exec (.upstreamWriteTaken w) s = .next { taken with held := some ⟨w, .admitMark i, timer⟩ }) ∧
      (s.markers.entries.length < 16 → room →
        ∃ t, exec (.upstreamWriteTaken w) s = .next t ∧
          t = { s with
                held := t.held, rtq := t.rtq, capture := t.capture, staging := t.staging, markers := t.markers,
                events.flags := t.events.flags, ports := t.ports } ∧
          t.staging.queue = s.staging.queue ++
            [⟨⟨s.capture.seqCounter, .mark ⟨s.capture.epochCounter, writeTag w, .trigger i, fenced, false⟩⟩, 0⟩] ∧
          t.staging.highArmed = armedAfterRise s t ∧ t.staging.finalMark = s.staging.finalMark ∧ t.staging.lowWritten = false ∧
          t.capture = ⟨s.capture.seqCounter + 1, s.capture.epochCounter + 1, none, none⟩ ∧
          t.markers = { s.markers with entries := s.markers.entries ++
            [⟨s.capture.epochCounter, writeTag w, .trigger i, fenced, false, s.capture.seqCounter, none, .recorded⟩] } ∧
          t.events.flags = flagsWith (riseEvents s t) s ∧ t.ports.taken = s.ports.taken ++ [.write w] ∧
          (fenced = true → t.held = some ⟨w, .fence s.capture.epochCounter, timer⟩ ∧ t.rtq = s.rtq ∧
            t.ports = taken.ports) ∧
          (fenced = false → t.held = none ∧
            t.rtq = { s.rtq with
                      forwardCount := s.rtq.forwardCount + 1
                      tracking := s.rtq.tracking.map fun e =>
                        { e with ordinal := some (e.ordinal.getD s.rtq.forwardCount) } } ∧
            t.ports = { taken.ports with downstream := s.ports.downstream ++ [.write w] }) ∧
          t = withMarked w i taken))

/-- R1 to R3, R18, R20 to R22: a write response is returned unchanged and advances the answer count, whatever is held, and does
nothing else while PORn is low. While PORn is high, if the oldest tracking entry has the answer count as its ordinal, the entry
is consumed: OKAY does no more; ERROR forms a pending VOID in a free slot when the entry is not ended and the journal captures,
or drains with the FINAL MARK record not yet in staging; and counts and raises VOID_LATE when the entry is ended, when the FINAL
MARK record is in staging, or when all four slots are full. Any other response changes nothing else, as while the oldest entry
waits for its ordinal. -/
def Obligations.WriteResponseMatched : Prop :=
  ∀ (id : Byte) (a : WriteAnswer) (s : State),
    let back (s : State) : State :=
      { s with rtq.answerCount := s.rtq.answerCount + 1, ports.upstream := s.ports.upstream ++ [.write id a] }
    (s.pornLow = true → exec (.downstreamWriteResponse id a) s = .next (back s)) ∧
    (s.pornLow = false → (∀ e rest, s.rtq.tracking = e :: rest → e.ordinal ≠ some s.rtq.answerCount) →
      exec (.downstreamWriteResponse id a) s = .next (back s)) ∧
    (s.pornLow = false → ∀ e rest, s.rtq.tracking = e :: rest → e.ordinal = some s.rtq.answerCount →
      (∀ w q r trig stopped tm, s.held ≠ some ⟨w, .tracking q r trig stopped, tm⟩) →
      let drains := s.journal.state = .draining ∨ (s.journal.state = .faulted ∧ s.journal.resume = some .draining)
      (a = .okay → exec (.downstreamWriteResponse id a) s = .next (back { s with rtq.tracking := rest })) ∧
      (a = .error → e.ended = false → capturing s = true ∨ (drains ∧ s.staging.finalMark ≠ .entered) →
        s.rtq.voids.length < 4 →
        exec (.downstreamWriteResponse id a) s = .next
          (back { s with rtq.tracking := rest, rtq.voids := s.rtq.voids ++ [⟨e.seq, e.addr, e.length⟩] })) ∧
      (a = .error → e.ended = true ∨ (drains ∧ s.staging.finalMark = .entered) ∨ 4 ≤ s.rtq.voids.length →
        exec (.downstreamWriteResponse id a) s = .next
          (back { s with
                  rtq.tracking := rest, counters := countersWith [(.voidsLate, 1)] s,
                  events.flags := flagsWith [.voidLate] s })))

/-- R12, R14, R17, R19, R21: a response that consumes an entry, OKAY or ERROR, gives it to a write held for TRACKING. Outside a
stop the write takes the entry under its record's number and is forwarded with its ordinal, or goes to its marker wait if it
matches a trigger. A write kept across STOP takes the entry with its ended flag set and is forwarded; a trigger write then makes
no marker, with MARKS_LOST and MARK_LOST. That an entry without its ended flag is late in STOPPED (log entry 23), and that a
marker wait begins in this happening (log entry 16), are the model's readings, and that one rise, by the MARK record, either
disarms or re-arms STAGING_HIGH is its choice (log entry 35). -/
def Obligations.FreedEntryReleasesTracking : Prop :=
  ∀ (id : Byte) (a : WriteAnswer) (w : WriteTxn) (q : Word) (r : Fin 16) (trig : Option (Fin 4)) (stopped : Bool)
    (tm : Option Timer) (e : TrackEntry) (rest : List TrackEntry) (s : State),
    s.pornLow = false → s.held = some ⟨w, .tracking q r trig stopped, tm⟩ →
    s.rtq.tracking = e :: rest → e.ordinal = some s.rtq.answerCount → rest.length < 32 →
    let x := withConsumed a e rest s
    (stopped = false →
      exec (.downstreamWriteResponse id a) s = .next
        (withReturned id a (withOutcome w r trig (withEntry w q false { x with held := none })))) ∧
    (stopped = true →
      exec (.downstreamWriteResponse id a) s = .next (withReturned id a (withForwarded w (withEntry w q true
        (if trig.isSome then withMarkLost x else x))))) ∧
    (a = .okay → stopped = false → trig = none →
      exec (.downstreamWriteResponse id a) s = .next
        { s with
          held := none
          rtq := ⟨s.rtq.forwardCount + 1, s.rtq.answerCount + 1,
            (rest.map fun e => { e with ordinal := some (e.ordinal.getD s.rtq.forwardCount) }) ++
              [⟨some s.rtq.forwardCount, q, w.addr, w.lanes.length, false⟩], s.rtq.voids⟩
          ports := { s.ports with
                     downstream := s.ports.downstream ++ [.write w]
                     upstream := s.ports.upstream ++ [.write id .okay] } })

/-- R12, R13, R51 to R53: the stall limit of a held write expires: the write is counted as lost and accounted, in a new GAP
record or in the open one, STALL_TIMEOUT is raised, and the write is forwarded, or goes to its marker wait if it matches a
trigger; its formed record uses no sequence number. That the row acts whenever the timer runs (log entry 6), that a marker wait
begins in this happening (log entry 16), and that one rise either disarms or re-arms STAGING_HIGH (log entry 35), are the model's
choices. -/
def Obligations.StallLimitLosesWrite : Prop :=
  ∀ (w : WriteTxn) (r : Fin 16) (trig : Option (Fin 4)) (f : DataFields) (tm : Timer) (s : State), s.pornLow = false →
    s.held = some ⟨w, .admitData r trig f, some tm⟩ →
    let u := withLost w s.regions[r].label { s with held := none }
    exec .stallTimeout s =
      .next (withOutcome w r trig { u with events.flags := flagsWith [.stallTimeout] u }) ∧
    (trig = none → s.capture.openGap = none →
      let g : GapFields := { label := s.regions[r].label, mixed := false, firstAddr := w.addr,
                             endAddr := w.addr + BitVec.ofNat 40 w.lanes.length, count := 1,
                             bytes := BitVec.ofNat 32 w.lanes.length }
      ∃ t, exec .stallTimeout s = .next t ∧
        t = { s with
              held := none, rtq := t.rtq, capture := t.capture, staging := t.staging, events.flags := t.events.flags,
              counters := t.counters, ports.downstream := s.ports.downstream ++ [.write w] } ∧
        t.staging.queue = s.staging.queue ++ [⟨⟨s.capture.seqCounter, .gap g⟩, 0⟩] ∧
        t.capture = ⟨s.capture.seqCounter + 1, s.capture.epochCounter, none, some ⟨s.capture.seqCounter, g⟩⟩ ∧
        t.rtq.forwardCount = s.rtq.forwardCount + 1 ∧ t.rtq.tracking.length = s.rtq.tracking.length ∧
        t.counters = countersWith [(.lostWrites, 1), (.lostBytes, w.lanes.length), (.gapRecords, 1)] s ∧
        t.events.flags = flagsWith (riseEvents s t ++ [.gapOpened, .stallTimeout]) s)

/-- R15, R16, R91, R94: the limit of a marker wait expires: the write is forwarded without a marker, MARKS_LOST counts it and
MARK_LOST is raised. The limit of a fence expires: the write is forwarded, FENCE_TIMEOUT is raised, and its marker stays. A
limit row acts on no hold of another reason and on none without a timer. That the rows act whenever the timer runs (log entry 6),
and that a limit row without its timer changes nothing (log entry 3), are the model's choices. -/
def Obligations.MarkerAndFenceLimitsRelease : Prop :=
  ∀ s : State, s.pornLow = false →
    (∀ w i tm, s.held = some ⟨w, .marker i, some tm⟩ ∨ s.held = some ⟨w, .admitMark i, some tm⟩ →
      exec .markerWaitExpiry s = .next (withForwarded w (withMarkLost s))) ∧
    (∀ w e tm, s.held = some ⟨w, .fence e, some tm⟩ →
      exec .fenceLimitExpiry s = .next (withForwarded w { s with events.flags := flagsWith [.fenceTimeout] s })) ∧
    ((∀ w r trig f tm, s.held ≠ some ⟨w, .admitData r trig f, some tm⟩) → exec .stallTimeout s = .next s) ∧
    ((∀ w i tm, s.held ≠ some ⟨w, .marker i, some tm⟩ ∧ s.held ≠ some ⟨w, .admitMark i, some tm⟩) →
      exec .markerWaitExpiry s = .next s) ∧
    ((∀ w e tm, s.held ≠ some ⟨w, .fence e, some tm⟩) → exec .fenceLimitExpiry s = .next s)

/-! ## The admission arbiter (chapters 3 and 5) -/

/-- R22, R26, R36, R49: with its room there, the oldest pending VOID enters staging with the next sequence number and closes the
open record; its slot is freed, VOIDS counts it and VOID_RECORDED is raised. Without it nothing changes. That a claim enters at
its own row alone (log entry 7), and that one rise either disarms or re-arms STAGING_HIGH (log entry 35), are the model's
choices. -/
def Obligations.PendingVoidAdmitted : Prop :=
  ∀ (v : VoidFields) (rest : List VoidFields) (s : State), s.pornLow = false → s.rtq.voids = v :: rest →
    (88 ≤ freeBytes s → 3 ≤ freeSlots s →
      ∃ t, exec .admitPendingVoid s = .next t ∧
        t = { s with
              rtq.voids := rest, capture := t.capture, staging := t.staging, events.flags := t.events.flags,
              counters := countersWith [(.voids, 1)] s } ∧
        t.staging.queue = s.staging.queue ++ [⟨⟨s.capture.seqCounter, .void v⟩, 0⟩] ∧
        t.staging.highArmed = armedAfterRise s t ∧ t.staging.finalMark = s.staging.finalMark ∧ t.staging.lowWritten = false ∧
        t.capture = ⟨s.capture.seqCounter + 1, s.capture.epochCounter, none, none⟩ ∧
        t.events.flags = flagsWith (riseEvents s t ++ [.voidRecorded]) s) ∧
    (freeBytes s < 88 ∨ freeSlots s < 3 → exec .admitPendingVoid s = .next s)

/-- R12 to R14, R49: with no pending VOID and room for its record, the DATA record of a held write enters and is counted; the
write is tracked, or held for TRACKING while all 32 entries are in use, and is forwarded, or goes to its marker wait if it
matches a trigger. Behind a pending VOID, or without room, nothing changes. That a claim enters at its own row alone (log entry
7), that a marker wait begins in this happening (log entry 16), and that one rise either disarms or re-arms STAGING_HIGH (log
entry 35), are the model's choices. -/
def Obligations.HeldDataAdmitted : Prop :=
  ∀ (w : WriteTxn) (r : Fin 16) (trig : Option (Fin 4)) (f : DataFields) (tm : Option Timer) (s : State),
    s.pornLow = false → s.held = some ⟨w, .admitData r trig f, tm⟩ →
    let size := 16 + (if f.mask.isSome then 32 else 0) + (f.length + 7) / 8 * 8
    let seq := s.capture.seqCounter
    (s.rtq.voids = [] → size + 64 ≤ freeBytes s → 3 ≤ freeSlots s →
      exec .admitHeldData s = .next (withTracked w seq r trig (withData w r f { s with held := none })) ∧
      (s.rtq.tracking.length < 32 → trig = none →
        ∃ t, exec .admitHeldData s = .next t ∧
          t = { s with
                held := none, rtq := t.rtq, capture := t.capture, staging := t.staging, events.flags := t.events.flags,
                counters := countersWith [(.capturedWrites, 1), (.capturedBytes, w.lanes.length)] s,
                ports.downstream := s.ports.downstream ++ [.write w] } ∧
          t.staging.queue = s.staging.queue ++ [⟨⟨seq, .data f⟩, 0⟩] ∧
          t.capture.seqCounter = seq + 1 ∧ t.capture.epochCounter = s.capture.epochCounter ∧
          t.capture.openGap = none ∧ t.events.flags = flagsWith (riseEvents s t) s ∧
          t.rtq.forwardCount = s.rtq.forwardCount + 1 ∧
          t.rtq.tracking.getLast? = some ⟨some s.rtq.forwardCount, seq, w.addr, w.lanes.length, false⟩)) ∧
    (s.rtq.voids ≠ [] ∨ freeBytes s < size + 64 ∨ freeSlots s < 3 → exec .admitHeldData s = .next s)

/-- R15, R27, R49, R79: with a free list entry, no pending VOID and room, the MARK record of a held trigger write enters and
closes the epoch, its marker joins the list RECORDED, and the write is forwarded, or held for FENCE if the trigger is fenced.
Without one of them nothing changes. That a claim enters at its own row alone (log entry 7), and that one rise either disarms or
re-arms STAGING_HIGH (log entry 35), are the model's choices. -/
def Obligations.HeldMarkAdmitted : Prop :=
  ∀ (w : WriteTxn) (i : Fin 4) (tm : Option Timer) (s : State), s.pornLow = false →
    s.held = some ⟨w, .admitMark i, tm⟩ →
    let room := s.rtq.voids = [] ∧ 80 ≤ freeBytes s ∧ 3 ≤ freeSlots s ∧ s.markers.entries.length < 16
    let fenced := s.triggers[i].fenced
    let limit := s.words.fenceLimit * 1000
    (¬ room → exec .admitHeldMark s = .next s) ∧
    (room → s.capture.epochCounter ≠ 4294967295 →
      ∃ t, exec .admitHeldMark s = .next t ∧
        t = { s with
              held := t.held, rtq := t.rtq, capture := t.capture, staging := t.staging, markers := t.markers,
              events.flags := t.events.flags, ports.downstream := t.ports.downstream } ∧
        t.staging.queue = s.staging.queue ++
          [⟨⟨s.capture.seqCounter, .mark ⟨s.capture.epochCounter, writeTag w, .trigger i, fenced, false⟩⟩, 0⟩] ∧
        t.capture = ⟨s.capture.seqCounter + 1, s.capture.epochCounter + 1, none, none⟩ ∧
        t.markers = { s.markers with entries := s.markers.entries ++
          [⟨s.capture.epochCounter, writeTag w, .trigger i, fenced, false, s.capture.seqCounter, none, .recorded⟩] } ∧
        t.events.flags = flagsWith (riseEvents s t) s ∧
        (fenced = true →
          t.held = some ⟨w, .fence s.capture.epochCounter, if limit = 0 then none else some ⟨limit, 0⟩⟩ ∧
          t.rtq = s.rtq ∧ t.ports.downstream = s.ports.downstream) ∧
        (fenced = false → t.held = none ∧ t.rtq.forwardCount = s.rtq.forwardCount + 1 ∧
          t.ports.downstream = s.ports.downstream ++ [.write w]) ∧
        t = withMarked w i s)

/-- R28, R49, R84: the FINAL MARK record that STOP offers enters when a list entry and room are there and no other claim
waits: tag 0, source COMMAND, FINAL set. It closes the open epoch and leaves the epoch counter at its top value if it stands
there. That a claim enters at its own row alone (log entry 7), and that one rise either disarms or re-arms STAGING_HIGH (log entry
35), are the model's choices. -/
def Obligations.FinalMarkAdmitted : Prop :=
  ∀ s : State, s.pornLow = false → s.staging.finalMark = .waiting → s.rtq.voids = [] → heldWaits s = false →
    80 ≤ freeBytes s → 3 ≤ freeSlots s → s.markers.entries.length < 16 →
    ∃ t, exec .admitFinalMark s = .next t ∧
      t = { s with
            capture := t.capture, staging := t.staging, markers := t.markers, events.flags := t.events.flags } ∧
      t.staging.queue = s.staging.queue ++
        [⟨⟨s.capture.seqCounter, .mark ⟨s.capture.epochCounter, 0, .command, false, true⟩⟩, 0⟩] ∧
      t.staging.finalMark = .entered ∧ t.staging.highArmed = armedAfterRise s t ∧ t.staging.lowWritten = false ∧
      t.capture = ⟨s.capture.seqCounter + 1,
        if s.capture.epochCounter = 4294967295 then 4294967295 else s.capture.epochCounter + 1, none, none⟩ ∧
      t.markers = { s.markers with entries := s.markers.entries ++
        [⟨s.capture.epochCounter, 0, .command, false, true, s.capture.seqCounter, none, .recorded⟩] } ∧
      t.events.flags = flagsWith (riseEvents s t) s

/-- R28, R81, R82, R94: a request of MARKn is ignored outside the capturing states; it is lost, with MARKS_LOST and MARK_LOST,
when the list is full, a claim waits, room is lacking or the epoch counter stands at its top; otherwise its marker enters
with tag 0 and source PIN. That one rise either disarms or re-arms STAGING_HIGH is the model's choice (log entry 35). -/
def Obligations.PinRequestAnswered : Prop :=
  ∀ s : State, s.pornLow = false →
    let room := 80 ≤ freeBytes s ∧ 3 ≤ freeSlots s ∧ s.rtq.voids = [] ∧ heldWaits s = false ∧
      s.markers.entries.length < 16 ∧ s.capture.epochCounter ≠ 4294967295
    (capturing s = false → exec .marknRequest s = .next s) ∧
    (capturing s = true → ¬ room →
      exec .marknRequest s = .next
        { s with events.flags := flagsWith [.markLost] s, counters := countersWith [(.marksLost, 1)] s }) ∧
    (capturing s = true → room →
      ∃ t, exec .marknRequest s = .next t ∧
        t = { s with
              capture := t.capture, staging := t.staging, markers := t.markers, events.flags := t.events.flags } ∧
        t.staging.queue = s.staging.queue ++
          [⟨⟨s.capture.seqCounter, .mark ⟨s.capture.epochCounter, 0, .pin, false, false⟩⟩, 0⟩] ∧
        t.staging.finalMark = s.staging.finalMark ∧ t.staging.highArmed = armedAfterRise s t ∧ t.staging.lowWritten = false ∧
        t.capture = ⟨s.capture.seqCounter + 1, s.capture.epochCounter + 1, none, none⟩ ∧
        t.markers = { s.markers with entries := s.markers.entries ++
          [⟨s.capture.epochCounter, 0, .pin, false, false, s.capture.seqCounter, none, .recorded⟩] } ∧
        t.events.flags = flagsWith (riseEvents s t) s)

/-! ## The Framer (chapter 4) -/

/-- R60, R62, R63, R65 to R69, R85: one copy of the Framer into its assembling block. A fragment that leaves room leaves the block
assembling; one that fills the payload seals it FULL; the last byte of a MARK record advances the framing epoch, seals it MARK
or FINAL, and makes the marker of that record SEALED with the block's serial. A due seal stays due while a closed record is
left; the last one serves it, with the open DATA or GAP record behind it taken whole if the block has room for it (R63, R69),
and without it otherwise. The Link Engine then reads R144. That the framing epoch advances at the FINAL MARK record too is the
model's choice (log entry 39). -/
def Obligations.FramerCopiesAndSeals : Prop :=
  ∀ (i : Fin 8) (d : Draft) (e : Staged) (rest : List Staged) (s : State),
    s.pornLow = false → assembling s = some (i, d) → s.staging.queue = e :: rest → hasClosed s = true →
    d.payload.length < payloadSize s.framer.blockSize →
    let size := recordSize e.record - e.taken
    let room := payloadSize s.framer.blockSize - d.payload.length
    let n := min size room
    let d' : Draft :=
      { d with
        lead := if e.taken = 0 then d.lead else d.lead + n
        starts := if e.taken = 0 then d.starts + 1 else d.starts
        firstSeq := if e.taken = 0 ∧ d.starts = 0 then e.record.seq else d.firstSeq
        payload := d.payload ++ ((recordBytes e.record).drop e.taken).take n }
    let left := if n = size then rest else { e with taken := e.taken + n } :: rest
    let copied : State :=
      { s with
        staging.queue := left
        staging.highArmed := s.staging.highArmed || decide (queueBytes left < s.words.lowWatermark)
        staging.lowWritten := false }
    let cause := if s.framer.due = .pause then SealCause.pause else .timer
    (size < room → (∀ f, e.record.body ≠ .mark f) → s.framer.due = .none ∨ hasClosed copied = true →
      exec .framerCopy s = .next (linkChoose { copied with window := s.window.set i (.assembling d') })) ∧
    (size < room → (∀ f, e.record.body ≠ .mark f) → s.framer.due ≠ .none → rest = [] →
      exec .framerCopy s = .next (linkChoose (withSealed i ⟨d', s.framer.framingEpoch, cause⟩ copied))) ∧
    (∀ o, size < room → (∀ f, e.record.body ≠ .mark f) → s.framer.due ≠ .none → rest = [o] → hasClosed copied = false →
      o.taken = 0 →
      let whole := withWhole o d'
      (payloadSize s.framer.blockSize - d'.payload.length < recordSize o.record →
        exec .framerCopy s = .next (linkChoose (withSealed i ⟨d', s.framer.framingEpoch, cause⟩ copied))) ∧
      (recordSize o.record ≤ payloadSize s.framer.blockSize - d'.payload.length →
        exec .framerCopy s = .next (linkChoose (withSealed i
          ⟨whole, s.framer.framingEpoch, if whole.payload.length = payloadSize s.framer.blockSize then .full else cause⟩
          (withOpenTaken copied))))) ∧
    (room ≤ size → (size = room → ∀ f, e.record.body ≠ .mark f) →
      exec .framerCopy s = .next (linkChoose (withSealed i ⟨d', s.framer.framingEpoch, .full⟩ copied))) ∧
    (∀ f, e.record.body = .mark f → size ≤ room →
      let epoch := if s.framer.framingEpoch = 4294967295 then s.framer.framingEpoch else s.framer.framingEpoch + 1
      exec .framerCopy s = .next (linkChoose (withSealed i ⟨d', epoch, if f.final then .final else .mark⟩
        { copied with
          framer.framingEpoch := epoch
          markers.entries := s.markers.entries.map fun m =>
            if m.recSeq = e.record.seq ∧ m.state = .recorded then { m with state := .sealed, serial := some d.serial }
            else m })))

/-- R62, R64, R68: with no assembling block, a closed record and a FREE slot, a copy is the copy into the lowest FREE slot,
opened with the serial counter's value, the current generation and a fresh seal timer. With no FREE slot, or no closed record,
the Framer takes nothing. -/
def Obligations.FramerOpensBlocks : Prop :=
  ∀ s : State, s.pornLow = false →
    (∀ i, assembling s = none → hasClosed s = true → lowestFree s = some i →
      exec .framerCopy s = exec .framerCopy
        { s with
          window := s.window.set i (.assembling ⟨s.framer.generation, s.framer.serialCounter, 0, 0, 0, []⟩)
          framer.serialCounter := s.framer.serialCounter + 1
          framer.sealTimer := if s.words.sealTimer = 0 then none else some ⟨s.words.sealTimer.toNat, 0⟩ }) ∧
    (hasClosed s = false ∨ (assembling s = none ∧ lowestFree s = none) → exec .framerCopy s = .next (linkChoose s))

/-- R63, R65, R68, R69: the seal timer of the assembling block runs out. With a closed record in staging the TIMER seal stays due,
a PAUSE seal that is due already staying what it is; with none the block is sealed, with the open record taken whole if the
payload has room for it, and without it otherwise. Without a running timer nothing happens. That the row acts whenever the timer
runs (log entry 6), and that without one it changes nothing (log entry 3), are the model's choices. -/
def Obligations.SealTimerSeals : Prop :=
  ∀ (i : Fin 8) (d : Draft) (s : State), s.pornLow = false → assembling s = some (i, d) →
    let size := payloadSize s.framer.blockSize
    let cause := if s.framer.due = .pause then SealCause.pause else .timer
    (s.framer.sealTimer = none → exec .sealTimerExpiry s = .next s) ∧
    (s.framer.sealTimer.isSome = true →
      (hasClosed s = true →
        exec .sealTimerExpiry s = .next (linkChoose
          { s with framer.sealTimer := none, framer.due := if s.framer.due = .pause then .pause else .timer })) ∧
      (s.staging.queue = [] →
        exec .sealTimerExpiry s = .next (linkChoose (withSealed i ⟨d, s.framer.framingEpoch, cause⟩ s))) ∧
      (∀ e, s.staging.queue = [e] → hasClosed s = false → e.taken = 0 →
        let whole := withWhole e d
        (size - d.payload.length < recordSize e.record →
          exec .sealTimerExpiry s = .next (linkChoose (withSealed i ⟨d, s.framer.framingEpoch, cause⟩ s))) ∧
        (recordSize e.record ≤ size - d.payload.length →
          exec .sealTimerExpiry s = .next (linkChoose (withSealed i
            ⟨whole, s.framer.framingEpoch, if whole.payload.length = size then .full else cause⟩ (withOpenTaken s))))))

/-! ## The store link (chapters 7 and 8) -/

/-- R24, R59, R118, R119, R121, R123, R124, R131, R132, R206 to R208: the fields of a command frame stand in it in their order
with their code and their check code, and a short response built from the fields of R123 passes the transport checks for its
command and tag, and gives back its status word and state code. A long response built from the fields of R123 and R208, whatever
its unnamed identity bits, passes the checks for IDENT and gives back its identity. A block's bits stand on its data lines by
R118, each line between its start bit, its CRC-16 and its end bit (R132), and a block in is good when every line of the width
agrees (R131). A record is as long as R24 says and its bytes are those of its kind; a sealed block is its header, its payload
filled with zero, and the CRC-32 of both, B bytes in all. Which register bit of the CRC-32 is which bit of its result (log entry
11), and that the check codes are remainders of the bits followed by zero bits (log entry 40), are presumed. -/
def Obligations.LinkFramesSpelled : Prop :=
  ∀ (c : LinkCmd) (tag : Byte),
    (∀ arg : BitVec 40,
      let f := commandFrame c tag arg
      f.extractLsb' 62 2 = 1#2 ∧ f.extractLsb' 58 4 = commandCode c ∧ f.extractLsb' 50 8 = tag ∧ f.extractLsb' 10 40 = arg ∧
        f.extractLsb' 2 8 = crc8 (bitsOf (f.extractLsb' 10 54)) ∧ f.extractLsb' 0 2 = 3#2) ∧
    (∀ (status : Word) (code : Byte),
      let body : BitVec 54 := 0#2 ++ commandCode c ++ tag ++ status ++ code
      let r : BitVec 64 := body ++ crc8 (bitsOf body) ++ 3#2
      responseWellFormed r = true ∧ shortTransport c tag r = none ∧ shortStatus r = status ∧ shortState r = code) ∧
    (∀ arg : BitVec 40, ∀ other : LinkCmd, commandFrame c tag arg = commandFrame other tag arg → c = other) ∧
    commandCode c = codeShown c ∧
    (∀ (capacity : Word) (sizes width : BitVec 4) (unnamed : BitVec 24) (serial : BitVec 64),
      let body : BitVec 142 := 0#2 ++ 2#4 ++ tag ++ capacity ++ sizes ++ width ++ unnamed ++ serial
      let r : BitVec 160 := body ++ crc16 (bitsOf body) ++ 3#2
      longResponseWellFormed r = true ∧ longTransport .ident tag r = none ∧ longIdentity r = ⟨capacity, sizes, width, serial⟩) ∧
    (∀ bytes : List Byte,
      (lineBits .one 0 bytes).length = 8 * bytes.length ∧
      (∀ j, (lineBits .four j bytes).length = 2 * bytes.length) ∧
      (∀ (k : Nat) (b : Byte), bytes[k]? = some b →
        (∀ n < 8, (lineBits .one 0 bytes)[8 * k + n]? = some (b.getLsbD (7 - n))) ∧
        (∀ j < 4, (lineBits .four j bytes)[2 * k]? = some (b.getLsbD (4 + j)) ∧
          (lineBits .four j bytes)[2 * k + 1]? = some (b.getLsbD j))) ∧
      (∀ (w : Width) (j : Nat), ∃ code : List Bool, code.length = 16 ∧
        lineFrame w j bytes = [false] ++ lineBits w j bytes ++ code ++ [true] ∧
        ∀ n < 16, code[n]? = some ((crc16 (lineBits w j bytes)).getLsbD (15 - n)))) ∧
    (∀ (w : Width) (b : BlockIn), blockInGood w b = true ↔
      b.aligned = true ∧ ∀ j < (if w = .four then 4 else 1),
        b.crcs[j]? = some (crc16 (lineBits w j b.bytes)) ∧ b.ends[j]? = some true) ∧
    (∀ bits : List Bool, crc8 bits = remainder 0x07#8 0 bits ∧ crc16 bits = remainder 0x1021#16 0 bits) ∧
    (∀ bytes : List Byte, crc32 bytes =
      ~~~(remainder 0x04C11DB7#32 (BitVec.allOnes 32) (bytes.flatMap fun b => (List.range 8).map b.getLsbD)).reverse) ∧
    (∀ r : Record, (∀ f, r.body = .data f → f.data.length = f.length) →
      recordBytes r = recordLayout r ∧ (recordBytes r).length = recordSize r ∧ recordSize r % 8 = 0) ∧
    (∀ (size : BlockSize) (b : Block), b.draft.payload.length ≤ payloadSize size →
      sealedBytes size b = frontLayout (blockBytes size) b ++ bytesLE 4 (crc32 (frontLayout (blockBytes size) b)).toNat ∧
      (sealedBytes size b).length = blockBytes size)

/-- R119, R124, R128, R136 to R138, R168: what the link sends when a wait of its own ends. The idle periods bring RESET_STORE,
the settle time and the poll interval bring IDENT, the command gap the command that waits for it. The end bits of a frame open
the response window, and those of RESET_STORE the settle time with a fresh error count and init limit. The settle time of an
abandonment brings a RESET_STORE that waited for it, else it stops the clock and a waiting initialisation begins as from OFF. The
response window, or the response, that an abandonment lets end is discarded unchecked and brings its RESET_STORE. That an
abandonment lets a frame and a settle time end is the model's reading (log entry 10), and so are how a waiting command and a link
at rest keep their gaps (log entry 9), that the row of a wait that does not run changes nothing (log entry 3), and the check
codes of frames (log entry 40). -/
def Obligations.LinkWaitsEnd : Prop :=
  ∀ s : State, s.pornLow = false →
    (s.link.phase = .idlePeriod → exec .linkIdlePeriodEnd s = .next (withFrame .resetStore 0 s)) ∧
    (s.link.phase = .poll → exec .pollIntervalEnd s = .next (withFrame .ident 0 s)) ∧
    (s.link.phase = .settle → s.link.resetDue = false → s.link.abandoning = false →
      exec .resetSettleEnd s = .next (withFrame .ident 0 s)) ∧
    (s.link.phase = .settle → s.link.resetDue = true →
      exec .resetSettleEnd s = .next (withFrame .resetStore 0 { s with link.resetDue := false })) ∧
    (s.link.phase = .settle → s.link.resetDue = false → s.link.abandoning = true →
      (s.link.state ≠ .init →
        exec .resetSettleEnd s = .next
          { s with link.abandoning := false, link.clockOn := false, link.phase := .rest false false }) ∧
      (s.link.state = .init →
        exec .resetSettleEnd s = .next
          { s with
            link.abandoning := false
            link.clockOn := true
            link.divisor := s.words.initDivisor
            link.width := .one
            link.initValues :=
              ⟨s.words.initDivisor, s.words.runDivisor, s.words.busWidth, s.words.blockSize, s.words.retryLimit,
                s.words.busyLimit⟩
            link.phase := .idlePeriod })) ∧
    (∀ c, s.link.phase = .gap c →
      (c = .ident ∨ c = .endRun ∨ c = .commit ∨ c = .status → exec .commandGapEnd s = .next (withFrame c 0 s)) ∧
      (c = .setup → exec .commandGapEnd s = .next
        (withFrame .setup (BitVec.ofNat 40
          (widthLines s.link.initValues.width + 16 * blockSizeIndex s.link.initValues.blockSize)) s)) ∧
      (∀ r, c = .writeRun → s.link.run = some r → exec .commandGapEnd s = .next
        (withFrame .writeRun (r.start ++ (if r.count ≤ 255 then BitVec.ofNat 8 r.count else 0)) s)) ∧
      (∀ a, c = .readOne → s.link.readback = some a → exec .commandGapEnd s = .next (withFrame .readOne (a ++ 0#8) s))) ∧
    (∀ c, s.link.phase = .frame c →
      (c ≠ .resetStore → exec .commandFrameEnd s = .next { s with link.phase := .window c }) ∧
      (c = .resetStore → exec .commandFrameEnd s = .next
        { s with link.phase := .settle, link.consecutive := 0, link.initExpired := false })) ∧
    (∀ c, s.link.phase = .window c → s.link.resetDue = true →
      let discarded : State := withFrame .resetStore 0 { s with link.resetDue := false }
      exec .respTimeout s = .next discarded ∧
      (∀ h bits, responseRow bits c = some h → exec h s = .next discarded) ∧
      (c = .ident → ∀ bits, exec (.identResponse bits) s = .next discarded)) ∧
    (s.link.phase ≠ .idlePeriod → exec .linkIdlePeriodEnd s = .next s) ∧
    (s.link.phase ≠ .poll → exec .pollIntervalEnd s = .next s) ∧
    (s.link.phase ≠ .settle → exec .resetSettleEnd s = .next s) ∧
    ((∀ c, s.link.phase ≠ .frame c) → exec .commandFrameEnd s = .next s) ∧
    ((∀ c, s.link.phase ≠ .gap c) → (∀ g d, s.link.phase ≠ .rest g d) → exec .commandGapEnd s = .next s)

/-- R144 whole table, with R146 to R150, R161, R163, R165, R178 and R185: a link that rests with its command gap over reads R144.
In a sending state a commit owed comes first, then the pause boundary, where PAUSING becomes PAUSED, then the run that is used
up, then a block, which is sent in IN_RUN once the data gap is over, or a run for it, then the idle timer. In PAUSED, with a
RECOVER running, lines 1 and 2 apply and the boundary makes RECOVER DONE. Otherwise nothing is chosen, but for a READBACK that
waits in READY, whose READ_ONE is sent. While the command gap runs a command waits, and the rest is done at once: the boundary,
the closing of a used-up counted run, a block once the data gap is over, and the idle timer, of which a limit of 0 closes the run
after the gap. In a phase other than rest nothing is chosen. That a choice waits for its gap with the link at rest, and that the
END_RUN of an idle run waits for it in ENDING, are the model's choices (log entry 9), and so is the order of blocks by serial (log entry 34). How the check codes of blocks and frames are read
is presumed (log entries 11 and 40). -/
def Obligations.LinkChoosesByTable : Prop :=
  (∀ (gap dataGap : Bool) (s : State), s.pornLow = false → s.link.phase = .rest gap dataGap →
      let u : State := { s with link.phase := .rest false dataGap }
      exec .commandGapEnd s = .next (linkChoose u) ∧
      let still : Prop := exec .commandGapEnd s = .next { u with link.idle := none }
      let endRun : Prop := exec .commandGapEnd s =
        .next (withFrame .endRun 0 { s with link.state := .ending, link.sendCount := 0, link.idle := none })
      let commit : Prop := exec .commandGapEnd s = .next (withFrame .commit 0
        { s with
          link.state := .committing
          link.sendCount := 0
          link.idle := none
          markers.commitEpoch :=
            ((s.markers.entries.filter fun m => m.state == .accepted).getLast?).map fun m => m.epoch
          space.recordedHead := some s.space.head })
      let recovering : Prop := s.journal.slot.status = .running ∧ s.journal.slot.code = 9
      (s.link.state = .ready → ∀ a, s.link.readback = some a →
        exec .commandGapEnd s = .next (withFrame .readOne (a ++ 0#8)
          { s with link.state := .reading, link.sendCount := 0, link.idle := none })) ∧
      (sends s = true → s.link.state = .ready → s.link.readback = none →
        (commitOwed s = true → commit) ∧
        (commitOwed s = false → s.link.pauseReq = true →
          (s.journal.state = .pausing → s.journal.slot.status = .running →
            exec .commandGapEnd s = .next
              { u with
                link.idle := none
                journal.state := .paused
                journal.slot := endedSlot .done none 0 s
                events.flags := flagsWith [.commandDone] s }) ∧
          (s.journal.state = .pausing → s.journal.slot.status ≠ .running →
            exec .commandGapEnd s = .next { u with link.idle := none, journal.state := .paused }) ∧
          (s.journal.state ≠ .pausing → still)) ∧
        (commitOwed s = false → s.link.pauseReq = false → hasSealed s = true → 0 < freeBlocks s →
          let limit := min (blocksLeft s) (freeBlocks s)
          exec .commandGapEnd s = .next
            (withFrame .writeRun (headAddress s ++ (if limit ≤ 255 then BitVec.ofNat 8 limit else 0))
              { s with
                link.state := .opening
                link.sendCount := 0
                link.idle := none
                link.run := some ⟨headAddress s, limit, limit, s.link.tagCounter⟩ })) ∧
        (commitOwed s = false → s.link.pauseReq = false → hasSealed s = false ∨ freeBlocks s = 0 → still)) ∧
      (sends s = true → s.link.state = .inRun →
        (commitOwed s = true ∨ s.link.pauseReq = true → endRun) ∧
        (commitOwed s = false → s.link.pauseReq = false → s.link.run = none → still) ∧
        (commitOwed s = false → s.link.pauseReq = false → ∀ r, s.link.run = some r →
          (r.remaining = 0 → 255 < r.count → endRun) ∧
          (r.remaining = 0 → r.count ≤ 255 →
            exec .commandGapEnd s = .next (linkChoose
              { u with link.run := none, link.state := .ready, link.idle := none })) ∧
          (r.remaining ≠ 0 → hasSealed s = true → freeBlocks s = 0 ∨ dataGap = true → still) ∧
          (∀ i b, r.remaining ≠ 0 → hasSealed s = true → 0 < freeBlocks s → dataGap = false → oldestSealed s = some (i, b) →
            exec .commandGapEnd s = .next
              { s with
                window := s.window.set i (.inFlight b)
                link.state := .sending
                link.idle := none
                link.phase := .blockOut b.draft.serial (headAddress s)
                ports.linkOut := s.ports.linkOut ++ [.block s.link.width (sealedBytes s.framer.blockSize b)] }) ∧
          (r.remaining ≠ 0 → hasSealed s = false →
            (s.link.idle.isSome = true → exec .commandGapEnd s = .next u) ∧
            (s.link.idle = none → s.words.runIdleLimit = 0 → endRun) ∧
            (s.link.idle = none → s.words.runIdleLimit ≠ 0 → exec .commandGapEnd s = .next
              { u with link.idle := some ⟨s.words.runIdleLimit.toNat, 0⟩ })))) ∧
      (s.journal.state = .paused → s.link.readback = none →
        (s.link.state = .ready → recovering →
          (commitOwed s = true → commit) ∧
          (commitOwed s = false → s.link.pauseReq = true →
            exec .commandGapEnd s = .next
              { u with
                link.idle := none
                journal.slot := endedSlot .done none 0 s
                events.flags := flagsWith [.commandDone] s }) ∧
          (commitOwed s = false → s.link.pauseReq = false → still)) ∧
        (s.link.state = .ready → ¬ recovering → still) ∧ (s.link.state = .inRun → still)) ∧
      (s.journal.state = .starting ∨ s.journal.state = .faulted ∨ s.journal.state = .stopped → s.link.readback = none →
        s.link.state = .ready ∨ s.link.state = .inRun → still) ∧
      (s.link.state ≠ .ready → s.link.state ≠ .inRun → still)) ∧
  (∀ s : State, (∀ gap dataGap, s.link.phase ≠ .rest gap dataGap) → linkChoose s = s) ∧
  (∀ (dataGap : Bool) (s : State), s.link.phase = .rest true dataGap →
    let waits : Prop := linkChoose s = { s with link.idle := none }
    let recovering : Prop := s.journal.slot.status = .running ∧ s.journal.slot.code = 9
    (s.link.state = .ready → s.link.readback.isSome = true → waits) ∧
    (sends s = true → s.link.state = .ready → s.link.readback = none →
      (commitOwed s = true → waits) ∧
      (commitOwed s = false → s.link.pauseReq = true →
        (s.journal.state = .pausing → s.journal.slot.status = .running →
          linkChoose s =
            { s with
              link.idle := none
              journal.state := .paused
              journal.slot := endedSlot .done none 0 s
              events.flags := flagsWith [.commandDone] s }) ∧
        (s.journal.state = .pausing → s.journal.slot.status ≠ .running →
          linkChoose s = { s with link.idle := none, journal.state := .paused }) ∧
        (s.journal.state ≠ .pausing → waits)) ∧
      (commitOwed s = false → s.link.pauseReq = false → waits)) ∧
    (sends s = true → s.link.state = .inRun →
      (commitOwed s = true ∨ s.link.pauseReq = true ∨ s.link.run = none → waits) ∧
      (commitOwed s = false → s.link.pauseReq = false → ∀ r, s.link.run = some r →
        (r.remaining = 0 → 255 < r.count → waits) ∧
        (r.remaining = 0 → r.count ≤ 255 →
          linkChoose s = linkChoose { s with link.run := none, link.state := .ready, link.idle := none }) ∧
        (r.remaining ≠ 0 → hasSealed s = true → freeBlocks s = 0 ∨ dataGap = true → waits) ∧
        (∀ i b, r.remaining ≠ 0 → hasSealed s = true → 0 < freeBlocks s → dataGap = false → oldestSealed s = some (i, b) →
          linkChoose s =
            { s with
              window := s.window.set i (.inFlight b)
              link.state := .sending
              link.idle := none
              link.phase := .blockOut b.draft.serial (headAddress s)
              ports.linkOut := s.ports.linkOut ++ [.block s.link.width (sealedBytes s.framer.blockSize b)] }) ∧
        (r.remaining ≠ 0 → hasSealed s = false →
          (s.link.idle.isSome = true → linkChoose s = s) ∧
          (s.link.idle = none → s.words.runIdleLimit = 0 →
            linkChoose s =
              { s with link.state := .ending, link.sendCount := 0, link.idle := none, link.phase := .gap .endRun }) ∧
          (s.link.idle = none → s.words.runIdleLimit ≠ 0 →
            linkChoose s = { s with link.idle := some ⟨s.words.runIdleLimit.toNat, 0⟩ })))) ∧
    (s.journal.state = .paused → s.link.state = .ready → s.link.readback = none →
      (recovering → commitOwed s = false → s.link.pauseReq = true →
        linkChoose s =
          { s with
            link.idle := none
            journal.slot := endedSlot .done none 0 s
            events.flags := flagsWith [.commandDone] s }) ∧
      (¬ recovering ∨ commitOwed s = true ∨ s.link.pauseReq = false → waits)) ∧
    (s.journal.state = .paused → s.link.state = .inRun → waits) ∧
    (s.journal.state = .starting ∨ s.journal.state = .faulted ∨ s.journal.state = .stopped →
      s.link.state = .ready ∨ s.link.state = .inRun → waits) ∧
    (s.link.state ≠ .ready → s.link.state ≠ .inRun → waits))

/-- R124, R137, R138, R140, R141, R146, R148, R151, R154, R158, R159, R166: a transport error within the retry limit is recorded
and counted, and the command is sent again after the command gap, RETRIES rising by one. WRITE_RUN, END_RUN, COMMIT and READ_ONE
count it in the send count against the retry limit word, IDENT, SETUP and STATUS in the consecutive count against the retry limit
read at the start of the initialisation. Nothing else changes. The attempt field of the initialisation's errors is the model's
reading (log entry 18), as are the check codes (log entry 40), and that RETRIES rises in the happening of the error its choice
(log entry 36). -/
def Obligations.TransportErrorsRetried : Prop :=
  ∀ (c : LinkCmd) (k : LinkErr) (h : Instr) (s : State),
    s.pornLow = false → s.link.phase = .window c → s.link.resetDue = false → transportFailure c s.link.sentTag k h →
    let retried (addr : Option Word) (n : Nat) (s : State) : State :=
      { s with
        link.phase := .gap c
        link.lastError := some ⟨k, c, s.link.sentTag, none, addr, n, s.link.state, s.journal.state, .retry⟩
        counters := countersWith [(.linkErrors, 1), (.retries, 1)] s
        events.flags := flagsWith [.linkError] s }
    (c = .writeRun ∨ c = .endRun ∨ c = .commit ∨ c = .readOne →
      s.link.sendCount + 1 ≤ s.words.retryLimit.toNat →
      exec h s = .next (retried (commandAddress c s) (s.link.sendCount + 1)
        { s with link.sendCount := s.link.sendCount + 1 })) ∧
    (c = .setup ∨ c = .status ∨ (c = .ident ∧ s.link.initExpired = false) →
      s.link.consecutive + 1 ≤ s.link.initValues.retryLimit.toNat →
      exec h s = .next (retried none (s.link.consecutive + 1)
        { s with link.consecutive := s.link.consecutive + 1 }))

/-- R141, R148, R151, R154, R156, R157, R166: a command that fails, by transport beyond the retry limit or by a status error, has
its own outcome, the count raised by a transport error kept. WRITE_RUN, COMMIT and the initialisation's commands bring FAULT, and
so does END_RUN with ERR_WRITE; any other failure of END_RUN begins a re-initialisation; READ_ONE ends READBACK FAILED with
READ_ERROR, the link READY. The attempt fields are the model's reading (log entry 18), as are the check codes (log entry 40);
that RESET_STORE waits for no gap, and that the link comes to rest with both gaps running, is its choice (log entry 9). -/
def Obligations.FailedCommandsEscalate : Prop :=
  ∀ (c : LinkCmd) (k : LinkErr) (s : State),
    s.pornLow = false → s.link.phase = .window c → s.link.resetDue = false →
    let detail (n : Nat) (o : ErrOutcome) : ErrorDetail :=
      ⟨k, c, s.link.sentTag, none, commandAddress c s, n, s.link.state, s.journal.state, o⟩
    let init : Bool := c == .ident || c == .setup || c == .status
    let n := (if init then s.link.consecutive else s.link.sendCount) + 1
    let readFails (s : State) : State :=
      { s with
        link.state := .ready
        link.phase := .rest true true
        link.readback := none
        journal.slot := endedSlot .failed (some .readError) 0 s
        events.flags := flagsWith [.commandDone] s }
    (∀ h, transportFailure c s.link.sentTag k h → c ≠ .resetStore →
      (if init then s.link.initValues.retryLimit.toNat else s.words.retryLimit.toNat) < n →
      let t : State := if init then { s with link.consecutive := n } else { s with link.sendCount := n }
      (init = true ∨ c = .writeRun ∨ c = .commit → exec h s = .next (withFault (detail n .fault) t)) ∧
      (c = .endRun → s.link.abandoning = false → s.link.state ≠ .off →
        exec h s = .next (withInit (withError (detail n .reinit) t))) ∧
      (c = .readOne → s.journal.slot.status = .running →
        exec h s = .next (readFails (withError (detail n .failed) t)))) ∧
    (∀ h bits, responseRow bits c = some h → shortTransport c s.link.sentTag bits = none →
      shortStatusError c bits = some k →
      let t : State := { s with link.lastStatus := some ⟨shortStatus bits, shortState bits, c⟩ }
      let lost := statusErrWrite (shortStatus bits)
      (init = true ∨ c = .writeRun ∨ c = .commit ∨ (c = .endRun ∧ lost = true) →
        exec h s = .next (withFault (detail n .fault) t)) ∧
      (c = .endRun → lost = false → s.link.abandoning = false → s.link.state ≠ .off →
        exec h s = .next (withInit (withError (detail n .reinit) t))) ∧
      (c = .readOne → s.journal.slot.status = .running →
        exec h s = .next (readFails (withError (detail n .failed) t))))

/-- R116, R124 to R126, R131, R140, R141, R146, R148, R151, R163, R166, R177, R185: a short response that passes every check is
the last store status, and its command has its effect. WRITE_RUN opens the run, END_RUN closes it and begins a busy wait, COMMIT
begins one, READ_ONE opens the read data window, SETUP takes the run divisor and the configured width, and STATUS ends the
initialisation: the link is READY and goes on with the work that called for it. Outside the response window of its command a
response changes nothing (R116), nor does the end of a window that is not open. That the link comes to rest with both gaps
running is the model's choice (log entry 9), and so is that the row of a window that is not open changes nothing (log entry 3);
the check codes are its reading (log entry 40). -/
def Obligations.ShortResponsesTaken : Prop :=
  (∀ (bits : BitVec 64) (c : LinkCmd) (h : Instr) (s : State),
    responseRow bits c = some h → s.link.phase ≠ .window c → exec h s = .next s) ∧
  (∀ s : State, (∀ c, s.link.phase ≠ .window c) → exec .respTimeout s = .next s) ∧
  ∀ (bits : BitVec 64) (c : LinkCmd) (h : Instr) (s : State),
    s.pornLow = false → s.link.phase = .window c → s.link.resetDue = false → responseRow bits c = some h →
    shortTransport c s.link.sentTag bits = none → shortStatusError c bits = none →
    let t : State := { s with link.lastStatus := some ⟨shortStatus bits, shortState bits, c⟩ }
    (c = .writeRun →
      exec h s = .next (linkChoose
        { t with
          link.state := .inRun
          link.phase := .rest true true
          link.run := s.link.run.map fun r => { r with tag := s.link.sentTag } })) ∧
    (c = .endRun →
      exec h s = .next { t with link.run := none, link.phase := .busyCmd .endRun s.words.busyLimit }) ∧
    (c = .commit → exec h s = .next { t with link.phase := .busyCmd .commit s.words.busyLimit }) ∧
    (c = .readOne → exec h s = .next { t with link.phase := .readData }) ∧
    (c = .setup →
      exec h s = .next
        { t with
          link.phase := .gap .status
          link.consecutive := 0
          link.divisor := s.link.initValues.runDivisor
          link.width := s.link.initValues.width
          link.setupSize := s.link.initValues.blockSize }) ∧
    (c = .status →
      let ready : State :=
        { t with
          link.state := .ready
          link.phase := .rest true true
          link.consecutive := 0
          link.recovery := false }
      (s.link.readback.isSome = true ∨ s.journal.state = .active ∨ s.journal.state = .pausing ∨ s.journal.state = .draining →
        exec h s = .next (linkChoose ready)) ∧
      (s.link.readback = none → s.journal.slot.status = .running →
        (s.journal.state = .starting →
          exec h s = .next (linkChoose
            { ready with
              journal.state := .active
              journal.slot := endedSlot .done none (positionWord s.space.origin) s
              events.flags := flagsWith [.commandDone] s })) ∧
        (∀ r, s.journal.state = .faulted → s.journal.resume = some r → r ≠ .paused →
          exec h s = .next (linkChoose
            { ready with
              link.pauseReq := false
              link.attempts := 0
              journal.state := if r = .active then .active else .draining
              journal.resume := none
              journal.slot := endedSlot .done none 0 s
              events.flags := flagsWith [.commandDone] s })) ∧
        (s.journal.state = .faulted → s.journal.resume = some .paused →
          exec h s = .next (linkChoose
            { ready with
              link.pauseReq := true
              link.attempts := 0
              journal.state := .paused
              journal.resume := none }))))

/-- R116, R138, R139, R157: the response to IDENT that passes the transport checks. A capacity of 0 leads to the poll interval. A
ready identity that passes the checks of R139 is kept, at START for the generation too, and SETUP follows; one that fails a check
brings IDENT_MISMATCH and FAULT. The init limit brings INIT_TIMEOUT and FAULT, at once between two frames of the poll, and
otherwise when the response has been taken. After a transport error of the IDENT during which the limit expired, the error is
recorded first and INIT_TIMEOUT follows; an error beyond the retry limit is recorded alone. Outside the window of IDENT its
response changes nothing (R116). When the limit takes effect, and the order of those two errors, are the model's reading (log
entry 8), and so are the attempt field (log entry 18) and the check codes (log entry 40). That the link in FAULT rests with both
gaps running is its choice (log entry 9). -/
def Obligations.IdentityAndInitLimit : Prop :=
  ∀ (bits : BitVec 160) (s : State), s.pornLow = false →
    let i := longIdentity bits
    let v := s.link.initValues
    let size := i.sizes.getLsbD (blockSizeIndex v.blockSize)
    let width := decide (widthLines v.width ≤ i.maxWidth.toNat)
    let asked := s.journal.state ≠ .stopped ∧ s.journal.state ≠ .starting
    let fault (k : LinkErr) (n : Nat) (t : State) : State :=
      withFault ⟨k, .ident, s.link.sentTag, none, none, n, s.link.state, s.journal.state, .fault⟩ t
    (s.link.phase = .window .ident → s.link.resetDue = false → longTransport .ident s.link.sentTag bits = none →
      (s.link.initExpired = true →
        exec (.identResponse bits) s = .next (fault .initTimeout 1 { s with link.consecutive := 0 })) ∧
      (s.link.initExpired = false →
        (i.capacity = 0 → exec (.identResponse bits) s = .next { s with link.consecutive := 0, link.phase := .poll }) ∧
        (i.capacity ≠ 0 → size = true → width = true →
          (asked → ∃ g, s.link.genStoreId = some g ∧ g.serial = i.serial) →
          exec (.identResponse bits) s = .next
            { s with
              link.consecutive := 0
              link.phase := .gap .setup
              link.storeId := some i
              link.genStoreId := if s.journal.state = .starting then some i else s.link.genStoreId }) ∧
        (i.capacity ≠ 0 →
          (size = false ∨ width = false ∨ (asked ∧ ∃ g, s.link.genStoreId = some g ∧ g.serial ≠ i.serial)) →
          exec (.identResponse bits) s = .next (fault .identMismatch 1 { s with link.consecutive := 0 })))) ∧
    (s.link.phase ≠ .window .ident → exec (.identResponse bits) s = .next s) ∧
    (∀ h k, s.link.phase = .window .ident → s.link.resetDue = false → s.link.initExpired = true →
      transportFailure .ident s.link.sentTag k h →
      let n := s.link.consecutive + 1
      let t : State := { s with link.consecutive := n }
      (n ≤ v.retryLimit.toNat →
        exec h s = .next (fault .initTimeout (n + 1)
          (withError ⟨k, .ident, s.link.sentTag, none, none, n, s.link.state, s.journal.state, .fault⟩ t))) ∧
      (v.retryLimit.toNat < n → exec h s = .next (fault k n t))) ∧
    (s.link.state = .init → s.link.abandoning = false →
      (s.link.phase = .poll ∨ s.link.phase = .gap .ident →
        exec .initTimeout s = .next (fault .initTimeout (s.link.consecutive + 1) s)) ∧
      (s.link.phase = .frame .ident ∨ s.link.phase = .window .ident →
        exec .initTimeout s = .next { s with link.initExpired := true })) ∧
    (s.link.state ≠ .init → exec .initTimeout s = .next s)

/-- R132, R133, R144, R147 to R149: with the data gap over, a link that rests in IN_RUN with blocks left to its run and nothing
before it in R144 sends the oldest SEALED block to the head's address, and its slot is IN_FLIGHT. The end bit of the block opens
the token window. The idle timer's expiry closes the run with END_RUN, after the command gap if that still runs. That the row of
the expiry acts whenever the timer runs (log entry 6), that the rows of a timer, a gap or a block out that does not run change
nothing (log entry 3), that a choice waits for its gap with the link at rest (log entry 9), and how the oldest block is found by
its serial (log entry 34) are the model's choices; how the check codes are read is presumed (log entries 11 and 40). -/
def Obligations.BlockGoesOut : Prop :=
  ∀ s : State, s.pornLow = false →
    (∀ (gap d : Bool) (r : Run) (i : Fin 8) (b : Block), s.link.phase = .rest gap d → s.link.state = .inRun →
      sends s = true → commitOwed s = false → s.link.pauseReq = false → s.link.run = some r → r.remaining ≠ 0 →
      hasSealed s = true → oldestSealed s = some (i, b) → 0 < freeBlocks s →
      exec .dataGapEnd s = .next
        { s with
          window := s.window.set i (.inFlight b)
          link.state := .sending
          link.idle := none
          link.phase := .blockOut b.draft.serial (headAddress s)
          ports.linkOut := s.ports.linkOut ++ [.block s.link.width (sealedBytes s.framer.blockSize b)] }) ∧
    (∀ serial addr, s.link.phase = .blockOut serial addr →
      exec .blockOutEnd s = .next { s with link.state := .tokenWait, link.phase := .token serial addr }) ∧
    (∀ (gap d : Bool) (x : Timer), s.link.phase = .rest gap d → s.link.idle = some x →
      let u : State := { s with link.state := .ending, link.sendCount := 0, link.idle := none }
      exec .runIdleExpiry s = .next (if gap then { u with link.phase := .gap .endRun } else withFrame .endRun 0 u)) ∧
    (s.link.idle = none → exec .runIdleExpiry s = .next s) ∧
    ((∀ g d, s.link.phase ≠ .rest g d) → exec .runIdleExpiry s = .next s ∧ exec .dataGapEnd s = .next s) ∧
    ((∀ serial addr, s.link.phase ≠ .blockOut serial addr) → exec .blockOutEnd s = .next s)

/-- R64, R73, R86, R102, R104, R106, R107, R116, R147: an ACCEPT token frees the slot, advances the head by one block, makes the
block's marker ACCEPTED, lowers the run remaining, clears the attempt count and begins the busy wait. EXTENT_NOTIFY is raised
if the head leaves an entry with notify set, STORE_LOW if free is at or below the threshold while armed, STORE_FULL if the
space is full. A Framer that waited for a slot opens the freed one at once. Outside a token window the token is ignored (R116). -/
def Obligations.AcceptFreesAndAdvances : Prop :=
  (∀ s : State, (∀ serial addr, s.link.phase ≠ .token serial addr) → exec .accept s = .next s) ∧
  ∀ (serial addr : Word) (i : Fin 8) (b : Block) (s : State),
    s.pornLow = false → s.link.phase = .token serial addr → inFlight s = some (i, b) →
    let ch := s.space.chain
    let used := s.space.used + 1
    let low := decide (capacity s - used ≤ s.words.lowSpace.toNat)
    let leaves := decide (entryCount ch s.space.head ≤ s.space.head.offset + 1)
    let notifies := (ch[s.space.head.entry]?.map fun e => e.notify).getD false
    let t : State :=
      { s with
        window := s.window.set i .free
        space.head := advanceOne ch s.space.head
        space.used := used
        space.lowArmed := !low
        markers.entries := s.markers.entries.map fun m =>
          if m.serial = some serial ∧ m.state = .sealed then { m with state := .accepted } else m
        link.run := s.link.run.map fun r => { r with remaining := r.remaining - 1 }
        link.attempts := 0
        link.state := .programming
        link.phase := .busyToken serial addr s.words.busyLimit
        counters := countersWith [(.blocksAccepted, 1)] s
        events.flags := flagsWith ((if leaves && notifies then [.extentNotify] else []) ++
          (if low && s.space.lowArmed then [.storeLow] else []) ++ (if used = capacity s then [.storeFull] else [])) s }
    exec .accept s = .next (if framerWaiting s then framerStep t else t)

/-- R72, R116, R133, R152, R153, R157 to R159: a failed block returns to SEALED and its attempt count rises. Within the retry
limit the link is RECOVERING with the recovery flag set: after CRC_BAD END_RUN waits for the command gap alone, after WRITE_FAIL,
an invalid token or none a busy wait comes first. Beyond the retry limit, and after RANGE whatever the count, the link goes to
FAULT. Outside a token window a token is ignored (R116), and the end of a window that is not open changes nothing. That FAULT
follows at once beyond the limit is the model's reading (log entry 17); that RETRIES counts in the happening of the failure (log
entry 36), that the link in FAULT rests with both gaps running (log entry 9), and that the row of a window that is not open
changes nothing (log entry 3), are its choices. -/
def Obligations.FailedBlocksRecoverOrFault : Prop :=
  (∀ s : State, (∀ serial addr, s.link.phase ≠ .token serial addr) →
    exec .crcBad s = .next s ∧ exec .writeFail s = .next s ∧ exec .range s = .next s ∧ exec .tokenTimeout s = .next s ∧
      ∀ code e, exec (.tokenInvalid code e) s = .next s) ∧
  ∀ (serial addr : Word) (i : Fin 8) (b : Block) (h : Instr) (k : LinkErr) (awaits : Bool) (s : State),
    s.pornLow = false → s.link.phase = .token serial addr → inFlight s = some (i, b) →
    (h, k, awaits) = (.crcBad, .tokenCrcBad, false) ∨ (h, k, awaits) = (.writeFail, .tokenWriteFail, true) ∨
      (h, k, awaits) = (.tokenTimeout, .tokenTimeout, true) ∨ (h, k, awaits) = (.range, .tokenRange, false) ∨
      (∃ code e, readToken code e = .invalid ∧ (h, k, awaits) = (.tokenInvalid code e, .tokenInvalid, true)) →
    let n := s.link.attempts + 1
    let tag := (s.link.run.map fun r => r.tag).getD s.link.sentTag
    let detail (o : ErrOutcome) : ErrorDetail :=
      ⟨k, .writeRun, tag, some serial, some addr, n, s.link.state, s.journal.state, o⟩
    let u : State := { s with window := s.window.set i (.sealed b), link.attempts := n }
    (h ≠ .range → n ≤ s.words.retryLimit.toNat →
      exec h s = .next
        { u with
          link.state := .recovering
          link.recovery := true
          link.sendCount := if awaits then s.link.sendCount else 0
          link.phase := if awaits then .busyToken serial addr s.words.busyLimit else .gap .endRun
          link.lastError := some (detail .recovery)
          counters := countersWith [(.linkErrors, 1), (.retries, 1)] s
          events.flags := flagsWith [.linkError] s }) ∧
    (h = .range ∨ s.words.retryLimit.toNat < n → exec h s = .next (withFault (detail .fault) u))

/-- R116, R134, R147, R148, R153: LDAT0 is sampled high. After an ACCEPT the link returns to IN_RUN, or to READY with no run
record when a counted run is used up, and reads R144; in RECOVERING END_RUN waits for the command gap; after END_RUN the run is
closed, the recovery flag cleared, the link READY, and R144 is read. Outside a busy wait LDAT0 is ignored (R116). That the link
comes to rest with both gaps running is the model's choice (log entry 9). -/
def Obligations.BusyWaitsEnd : Prop :=
  ∀ s : State, s.pornLow = false →
    (∀ serial addr limit, s.link.phase = .busyToken serial addr limit →
      (s.link.state = .programming → ∀ r, s.link.run = some r →
        (r.count ≤ 255 → r.remaining = 0 →
          exec .busyEnd s = .next (linkChoose
            { s with link.run := none, link.state := .ready, link.phase := .rest true true })) ∧
        (255 < r.count ∨ r.remaining ≠ 0 →
          exec .busyEnd s = .next (linkChoose { s with link.state := .inRun, link.phase := .rest true true }))) ∧
      (s.link.state = .recovering →
        exec .busyEnd s = .next { s with link.sendCount := 0, link.phase := .gap .endRun })) ∧
    (∀ limit, s.link.phase = .busyCmd .endRun limit →
      exec .busyEnd s = .next (linkChoose
        { s with link.run := none, link.recovery := false, link.state := .ready, link.phase := .rest true true })) ∧
    ((∀ serial addr limit, s.link.phase ≠ .busyToken serial addr limit) → (∀ c limit, s.link.phase ≠ .busyCmd c limit) →
      exec .busyEnd s = .next s)

/-- R25, R57, R80, R88, R89, R91, R93, R109, R151, R181: a COMMIT succeeds: COMMITS rises, the boundary moves to the recorded
head, the markers at or below the commit epoch leave the list, the durable epoch and tag follow the newest of them and
EPOCH_DURABLE is raised, the link is READY and R144 is read. A fenced marker among them ends the fence that awaits its epoch; a
freed entry moves a write that waits for MARKER to ADMISSION. The FINAL marker ends the generation, and STOP, if it is running,
is DONE. A commit for space alone touches no marker. That durable-used becomes used is the model's reading (log entry 28), and
that the link rests with both gaps running its choice (log entry 9). -/
def Obligations.CommitSucceeds : Prop :=
  ∀ (limit : Nat) (p : Pos) (s : State),
    s.pornLow = false → s.link.phase = .busyCmd .commit limit → s.space.recordedHead = some p →
    let moved : State :=
      { s with
        counters := countersWith [(.commits, 1)] s
        space.boundary := p
        space.durableUsed := s.space.used
        space.recordedHead := none
        markers.commitEpoch := none
        link.state := .ready
        link.phase := .rest true true }
    (s.markers.commitEpoch = none → exec .busyEnd s = .next (linkChoose moved)) ∧
    (∀ e : Word, s.markers.commitEpoch = some e →
      let gone := s.markers.entries.filter fun m => decide (m.epoch ≤ e)
      (gone = [] → exec .busyEnd s = .next (linkChoose moved)) ∧
      (∀ m : Marker, gone.getLast? = some m →
        let durable : State :=
          { moved with
            markers.entries := s.markers.entries.filter fun m => decide (e < m.epoch)
            markers.durableEpoch := m.epoch
            markers.durableTag := m.tag
            events.flags := flagsWith [.epochDurable] s }
        let after := withReleased gone durable
        let stop : Bool := s.journal.slot.status == .running && s.journal.slot.code == 2
        (s.held = none → after = durable) ∧
        (∀ w tm m', s.held = some ⟨w, .fence m'.epoch, tm⟩ → m' ∈ gone → m'.fenced = true →
          after = withForwarded w durable) ∧
        (∀ w i tm, s.held = some ⟨w, .marker i, tm⟩ → durable.markers.entries.length < 16 →
          after = { durable with held := some ⟨w, .admitMark i, tm⟩ }) ∧
        ((∀ m ∈ gone, m.final = false) → exec .busyEnd s = .next (linkChoose after)) ∧
        ((∃ m ∈ gone, m.final = true) →
          exec .busyEnd s = .next (linkChoose
            { after with
              journal.state := .stopped
              journal.resume := none
              journal.slot := if stop then endedSlot .done none 0 s else s.journal.slot
              capture.openRec := none
              capture.openGap := none
              staging.queue := []
              staging.finalMark := .none
              rtq.tracking := after.rtq.tracking.map fun e => { e with ended := true }
              events.flags := flagsWith ([.epochDurable] ++ (if stop then [.commandDone] else [])) s }))))

/-- R134, R148, R151, R153 to R155, R158: the busy limit expires. After a token it is recorded and the link goes on to END_RUN
after the command gap, the attempt count untouched; after END_RUN it brings a re-initialisation, after COMMIT FAULT. Outside a
busy wait the row changes nothing. The recovery flag, the outcome and the attempt are the model's reading (log entries 18 and
19), as are the check codes of frames (log entry 40); that the link in FAULT rests with both gaps running, and RESET_STORE waits
for no gap (log entry 9), and that the row of a wait that does not run changes nothing (log entry 3), are its choices. -/
def Obligations.BusyLimitExpires : Prop :=
  ∀ s : State, s.pornLow = false →
    (∀ serial addr limit, s.link.phase = .busyToken serial addr limit →
      let tag := (s.link.run.map fun r => r.tag).getD s.link.sentTag
      exec .busyTimeout s = .next
        { withError ⟨.busyTimeout, .writeRun, tag, some serial, some addr, s.link.sendCount + 1, s.link.state,
            s.journal.state, .recovery⟩ s with
          link.state := .recovering
          link.sendCount := 0
          link.phase := .gap .endRun }) ∧
    (∀ limit, s.link.phase = .busyCmd .endRun limit → s.link.abandoning = false → s.link.state ≠ .off →
      exec .busyTimeout s = .next (withInit (withError
        ⟨.busyTimeout, .endRun, s.link.sentTag, none, none, s.link.sendCount + 1, s.link.state, s.journal.state, .reinit⟩
        s))) ∧
    (∀ limit, s.link.phase = .busyCmd .commit limit →
      exec .busyTimeout s = .next (withFault
        ⟨.busyTimeout, .commit, s.link.sentTag, none, none, s.link.sendCount + 1, s.link.state, s.journal.state, .fault⟩
        s)) ∧
    ((∀ serial addr limit, s.link.phase ≠ .busyToken serial addr limit) → (∀ c limit, s.link.phase ≠ .busyCmd c limit) →
      exec .busyTimeout s = .next s)

/-- R116, R131, R166, R167, R183: a block in fills the buffer with its bytes, zero after them. With good lines its trailer
decides between DONE with the address and CRC_MISMATCH; with a bad line it is READ_CRC, and READ_TIMEOUT leaves the buffer.
Either is tried again within the retry limit, and ends READBACK with READ_ERROR beyond it. The link is READY at the end. Outside
a read data window the data lines are ignored (R116), and the end of a window that is not open changes nothing. The attempt
fields are the model's reading (log entry 18); how the check codes are read is presumed (log entries 11 and 40); that the link
comes to rest with both gaps running (log entry 9), that RETRIES rises in the happening of the error (log entry 36), and that the
row of a window that is not open changes nothing (log entry 3), are its choices. -/
def Obligations.ReadbackEnds : Prop :=
  (∀ (b : BlockIn) (s : State), s.link.phase ≠ .readData →
    exec (.readBlockReceived b) s = .next s ∧ exec .readTimeout s = .next s) ∧
  ∀ (a : Word) (b : BlockIn) (s : State),
    s.pornLow = false → s.link.phase = .readData → s.link.readback = some a → s.journal.slot.status = .running →
    b.bytes.length = blockBytes s.link.setupSize →
    let ended (status : CmdStatus) (reason : Option Reason) (r0 : Word) (s : State) : State :=
      { s with
        link.state := .ready
        link.phase := .rest true true
        link.readback := none
        journal.slot := endedSlot status reason r0 s
        events.flags := flagsWith [.commandDone] s }
    let n := s.link.sendCount + 1
    let detail (k : LinkErr) (o : ErrOutcome) : ErrorDetail :=
      ⟨k, .readOne, s.link.sentTag, none, some a, n, s.link.state, s.journal.state, o⟩
    let failed (k : LinkErr) (s : State) : State :=
      if n ≤ s.words.retryLimit.toNat then
        { s with
          link.phase := .gap .readOne
          link.sendCount := n
          link.lastError := some (detail k .retry)
          counters := countersWith [(.linkErrors, 1), (.retries, 1)] s
          events.flags := flagsWith [.linkError] s }
      else ended .failed (some .readError) 0 (withError (detail k .failed) { s with link.sendCount := n })
    exec .readTimeout s = .next (failed .readTimeout s) ∧
    ∃ t, exec (.readBlockReceived b) s = .next t ∧ (∀ k : Nat, memoryRead t.buffer k = (b.bytes[k]?).getD 0) ∧
      let u : State := { s with buffer := t.buffer }
      (blockInGood s.link.width b = true → trailerAgrees b.bytes.length b.bytes = true → t = ended .done none a u) ∧
      (blockInGood s.link.width b = true → trailerAgrees b.bytes.length b.bytes = false →
        t = ended .failed (some .crcMismatch) 0 u) ∧
      (blockInGood s.link.width b = false → t = failed .readCrc u)

/-! ## The Space Tracker (chapter 6) -/

/-- R102 whole: on the chain of a table that passes its checks, a position advances by one block within its entry, to offset 0 of
the next entry after the last block of one, and from the last block of the entry marked last to offset 0 of entry 0. An advance
by n blocks is n such advances. Its store block address is the entry's start address plus its offset. The blocks left in the
head's extent are the count of the head's entry less its offset, from 1 to that count. -/
def Obligations.PositionsAdvance : Prop :=
  ∀ (table ch : List Extent) (p : Pos) (e : Extent),
    chainFrom table = some ch → chainGood ch = true → onChain ch p = true → ch[p.entry]? = some e →
    (p.offset < e.count.toNat - 1 → advance ch 1 p = ⟨p.entry, p.offset + 1⟩) ∧
    (¬ p.offset < e.count.toNat - 1 → e.last = false → advance ch 1 p = ⟨p.entry + 1, 0⟩) ∧
    (¬ p.offset < e.count.toNat - 1 → e.last = true → advance ch 1 p = ⟨0, 0⟩) ∧
    (∀ n : Nat, advance ch n p = (advance ch 1)^[n] p) ∧
    advanceOne ch p = advance ch 1 p ∧
    (storeAddress ch p).toNat = e.start.toNat + p.offset ∧
    (∀ s : State, s.space.chain = ch → s.space.head = p →
      blocksLeft s = e.count.toNat - p.offset ∧ 1 ≤ blocksLeft s ∧ blocksLeft s ≤ e.count.toNat)

/-! ## The Management Port and the Event Unit (chapters 10 and 11) -/

/-- R192 to R195, R198, R202, R204: a write to the flag word clears the flags whose bit is 1, one to a mask replaces it, one to
the force word sets the flags whose bit is 1 and whose enable is set, one to a counter clears it, one to the argument word or the
low-space threshold replaces it, and nothing else changes. A bad frame is counted, what it shifted out is noted, nothing for a
frame without the opcode READ or a first data bit, and nothing else changes. IRQn is driven low exactly when some flag is set
with its enable and its line enable. The operands of the rows (log entry 27) and the record of what was shifted out (log entry 2)
are the model's choice. -/
def Obligations.EventWordsWritten : Prop :=
  ∀ (v : Word) (s : State), portOpen s = true →
    exec (.flagWordWrite v) s = .next { s with events.flags := s.events.flags &&& ~~~(v.setWidth 16) } ∧
    exec (.enablesWrite v) s = .next { s with events.enables := v.setWidth 16 } ∧
    exec (.lineEnablesWrite v) s = .next { s with events.lineEnables := v.setWidth 16 } ∧
    exec (.forceWordWrite v) s =
      .next { s with events.flags := s.events.flags ||| (v.setWidth 16 &&& s.events.enables) } ∧
    exec (.registerWrite 0x41 v) s = .next { s with events.enables := v.setWidth 16 } ∧
    exec (.registerWrite 0x42 v) s = .next { s with events.lineEnables := v.setWidth 16 } ∧
    exec (.registerWrite 0x21 v) s = .next { s with argWord := v } ∧
    exec (.registerWrite 0x1B v) s = .next { s with words.lowSpace := v } ∧
    (∀ k : Counter, exec (.counterClear (BitVec.ofNat 16 (0x50 + (counterIndex k).val)) v) s =
      .next { s with counters := s.counters.set (counterIndex k) 0 }) ∧
    (∀ bits, badFrameWellFormed bits = true → ∃ out : List (List Bool),
      exec (.mgmtBadFrame bits) s = .next
        { s with counters := countersWith [(.mgmtBadFrames, 1)] s, ports.mgmtOut := s.ports.mgmtOut ++ out } ∧
      (frameField bits 0 8 ≠ 0x96 ∨ bits.length ≤ 24 → out = [])) ∧
    (irqLow s = true ↔ ∃ n : Nat, s.events.flags.getLsbD n = true ∧ s.events.enables.getLsbD n = true ∧
      s.events.lineEnables.getLsbD n = true)

/-- R10, R56, R61, R106, R134, R149, R193, R198, R201 to R204: a write to an unlocked word takes its value, brought into the
word's range; a low watermark written above the occupied bytes stands for the next change of occupancy; a write to a counter
clears it; a bad frame is counted; nothing else changes. A READ frame changes no state: its words, from its address on, are
shifted out, each most significant bit first, and also those of one that ends early, which is counted. Every word reads what
R204 and R205 lay out in it: identification, configuration and argument words, command records, journal status, masks, counters,
Marker List, Space Tracker, Link Engine, last-error detail, durable pair and readback buffer; an address that names no word
reads 0. The words of R76 and R97 show that status alone. While the port does not act on frames, no management row changes
anything. The operands of the rows, that a frame the port ignores changes nothing, that a READ frame's capture falls in the
happening of the frame, and the record of what was shifted out are the model's choice (log entries 2, 3, 27 and 31); so are the
layout of the durable pair (log entry 15), what absent items read (log entry 37), and bit 1 of 0x00CC after POR (log entry 38);
the order of the identification words (log entry 14), and the note that a low watermark was written above the occupied bytes
(log entry 35), are its readings. The layout of the words of R76 and R97 is left open (log entry 15). -/
def Obligations.OpenWordsWritten : Prop :=
  ∀ (v : Word) (s : State),
    (portOpen s = true →
      exec (.registerWrite 0x15 v) s = .next { s with words.busyLimit := max 1 (min v.toNat 2000) } ∧
      exec (.registerWrite 0x16 v) s = .next { s with words.runIdleLimit := BitVec.ofNat 16 (min v.toNat 65535) } ∧
      exec (.registerWrite 0x17 v) s = .next { s with words.sealTimer := BitVec.ofNat 16 (min v.toNat 65535) } ∧
      exec (.registerWrite 0x18 v) s = .next { s with words.fenceLimit := max 1 (min v.toNat 4000) } ∧
      exec (.registerWrite 0x19 v) s = .next { s with words.highWatermark := min v.toNat 65536 } ∧
      exec (.registerWrite 0x1A v) s = .next
        { s with
          words.lowWatermark := min v.toNat 65536
          staging.lowWritten := decide (occupiedBytes s < min v.toNat 65536) } ∧
      exec (.registerWrite 0x1B v) s = .next { s with words.lowSpace := v } ∧
      exec (.registerWrite 0x21 v) s = .next { s with argWord := v } ∧
      exec (.registerWrite 0x41 v) s = .next { s with events.enables := v.setWidth 16 } ∧
      exec (.registerWrite 0x42 v) s = .next { s with events.lineEnables := v.setWidth 16 } ∧
      (∀ k : Counter, exec (.counterClear (BitVec.ofNat 16 (0x50 + (counterIndex k).val)) v) s =
        .next { s with counters := s.counters.set (counterIndex k) 0 }) ∧
      (∀ bits, badFrameWellFormed bits = true →
        exec (.mgmtBadFrame bits) s = .next
          { s with
            counters := countersWith [(.mgmtBadFrames, 1)] s
            ports.mgmtOut := s.ports.mgmtOut ++
              (if frameField bits 0 8 = 0x96 ∧ 24 < bits.length then
                [shiftOut (BitVec.ofNat 16 (frameField bits 8 16)) (bits.length - 24) s] else []) }) ∧
      (∀ (a : Half) (k : Nat) (sent : List Bool), 1 ≤ k → sent.length = 32 * k →
        exec (.mgmtBadFrame (bitsOf 0x96#8 ++ bitsOf a ++ sent)) s = .next
          { s with ports.mgmtOut := s.ports.mgmtOut ++ [(List.range k).flatMap fun j =>
              bitsOf (readWord s (a + BitVec.ofNat 16 j))] })) ∧
    (∀ (t : State) (a : Half), 0x60 ≤ a.toNat → a.toNat < 0x80 → a ≠ 0x70 → a ≠ 0x71 → statusView t = statusView s →
      readWord t a = readWord s a) ∧
    (let words (a : Half) (n : Nat) : List Word := (List.range n).map fun k => readWord s (a + BitVec.ofNat 16 k)
     let j := s.journal
     words 0x0 2 = [0x524E, 2080] ∧
     words 0x10 12 = configShown s.words ∧
     words 0x20 2 = [0, s.argWord] ∧
     words 0x22 6 = recordShown (some j.slot) ++ recordShown j.side ∧
     words 0x28 1 = (recordShown j.overtaken).take 1 ∧
     words 0x30 8 =
       [j.generation ++ j.number ++ 0#1 ++ resumeShown j.resume ++ 0#1 ++ journalShown j.state] ++ holdShown s.held ++
         [s.capture.epochCounter, s.capture.seqCounter, BitVec.ofNat 32 (occupiedBytes s),
          BitVec.ofNat 32 s.staging.queue.length,
          0#23 ++ BitVec.ofBool s.capture.openGap.isSome ++ 0#5 ++ BitVec.ofNat 3 s.rtq.voids.length] ∧
     words 0x40 5 =
       [0#16 ++ s.events.flags, 0#16 ++ s.events.enables, 0#16 ++ s.events.lineEnables, 0,
        0#16 ++ (s.events.flags &&& s.events.enables &&& s.events.lineEnables)] ∧
     words 0x50 15 = s.counters.toList ∧
     words 0x70 2 = [s.markers.durableEpoch, 0#16 ++ s.markers.durableTag] ∧
     (∀ k : Fin 16, words (BitVec.ofNat 16 (0x80 + 4 * k.val)) 4 = markerShown s.markers.entries[k.val]?) ∧
     words 0xC0 13 = spaceShown s ∧
     words 0xE0 15 = linkWordsShown s.link ∧
     words 0xF0 4 = errorShown s.link.lastError ∧
     (∀ k : Fin 1024, words (BitVec.ofNat 16 (0x400 + k.val)) 1 =
       [memoryRead s.buffer (4 * k.val + 3) ++ memoryRead s.buffer (4 * k.val + 2) ++ memoryRead s.buffer (4 * k.val + 1) ++
         memoryRead s.buffer (4 * k.val)]) ∧
     (∀ a : Half, ∀ n : Nat,
       (a.toNat, n) ∈ [(0x4, 12), (0x1C, 4), (0x29, 7), (0x38, 8), (0x45, 11), (0x5F, 1), (0xCD, 19), (0xEF, 1), (0xF4, 12),
         (0x150, 48), (0x1C0, 576), (0x800, 63488)] → ∀ k < n, readWord s (a + BitVec.ofNat 16 k) = 0)) ∧
    (portOpen s = false → ∀ h, managementRow h = true → exec h s = .next s)

/-- R4, R7, R98, R117, R118, R136, R188, R205: in STOPPED a write to a locked word is taken, and reads back as written less the
bits the word does not have, each field of the entry the bits of R205 and the rest of its entry unchanged; block size, bus width
and retry limit are brought into their values. In any state the words of an entry read its fields in those bits. In any other
state it is ignored, and CONFIG_REFUSED is raised. The operands of the row are the model's choice (log entry 27), and a divisor
above 255 is left open (log entry 12). -/
def Obligations.LockedWordsWritten : Prop :=
  ∀ (v : Word) (s : State),
    (portOpen s = true → s.journal.state ≠ .stopped → ∀ a, lockedWord a = true →
      exec (.lockedConfigWrite a v) s = .next { s with events.flags := flagsWith [.configRefused] s }) ∧
    (portOpen s = true → s.journal.state = .stopped →
      exec (.lockedConfigWrite 0x10 v) s = .next { s with words.blockSize :=
        if v = 512 then .b512 else if v = 1024 then .b1024 else if v = 2048 then .b2048 else .b4096 } ∧
      exec (.lockedConfigWrite 0x11 v) s = .next { s with words.busWidth := if v = 4 then .four else .one } ∧
      (v.toNat ≤ 255 → exec (.lockedConfigWrite 0x12 v) s = .next { s with words.initDivisor := v.setWidth 8 }) ∧
      (v.toNat ≤ 255 → exec (.lockedConfigWrite 0x13 v) s = .next { s with words.runDivisor := v.setWidth 8 }) ∧
      exec (.lockedConfigWrite 0x14 v) s = .next { s with words.retryLimit := BitVec.ofNat 3 (min v.toNat 7) } ∧
      (∀ (n : Fin 16) (k : Fin 4), ∃ r : Region,
        exec (.lockedConfigWrite (BitVec.ofNat 16 (0x100 + 4 * n.val + k.val)) v) s =
          .next { s with regions := s.regions.set n r } ∧
        regionWord k.val r = v &&& #v[0xFFFFF000#32, 0x00FF07FF#32, 0xFFFFF000#32, 0xFFFF00FF#32][k] ∧
        (∀ k' : Fin 4, k' ≠ k → regionWord k'.val r = regionWord k'.val s.regions[n]) ∧
        (k = 0 → r = { s.regions[n] with basePage := s.regions[n].basePage.extractLsb' 20 8 ++ v.extractLsb' 12 20 }) ∧
        (k = 1 → r =
          { s.regions[n] with
            basePage := v.extractLsb' 0 8 ++ s.regions[n].basePage.extractLsb' 0 20
            enabled := v.getLsbD 8
            policy := if v.getLsbD 9 = true then .shed else .stall
            coalesce := v.getLsbD 10
            label := v.extractLsb' 16 8 }) ∧
        (k = 2 → r = { s.regions[n] with limitPage := s.regions[n].limitPage.extractLsb' 20 8 ++ v.extractLsb' 12 20 }) ∧
        (k = 3 → r =
          { s.regions[n] with
            limitPage := v.extractLsb' 0 8 ++ s.regions[n].limitPage.extractLsb' 0 20
            stallLimit := v.extractLsb' 16 16 })) ∧
      (∀ (n : Fin 4) (k : Fin 2), ∃ t : Trigger,
        exec (.lockedConfigWrite (BitVec.ofNat 16 (0x140 + 4 * n.val + k.val)) v) s =
          .next { s with triggers := s.triggers.set n t } ∧
        triggerWord k.val t = v &&& #v[0xFFFFFFF8#32, 0x000003FF#32][k] ∧
        (∀ k' : Fin 2, k' ≠ k → triggerWord k'.val t = triggerWord k'.val s.triggers[n]) ∧
        (k = 0 → t = { s.triggers[n] with addr := s.triggers[n].addr.extractLsb' 32 8 ++ v.extractLsb' 3 29 ++ 0#3 }) ∧
        (k = 1 → t =
          { addr := v.extractLsb' 0 8 ++ s.triggers[n].addr.extractLsb' 0 32
            enabled := v.getLsbD 8
            fenced := v.getLsbD 9 })) ∧
      (∀ (n : Fin 32) (k : Fin 2), ∃ e : Extent,
        exec (.lockedConfigWrite (BitVec.ofNat 16 (0x180 + 2 * n.val + k.val)) v) s =
          .next { s with extents := s.extents.set n e } ∧
        extentWord k.val e = v &&& #v[0xFFFFFFFF#32, 0x07FFFFFF#32][k] ∧
        (∀ k' : Fin 2, k' ≠ k → extentWord k'.val e = extentWord k'.val s.extents[n]) ∧
        (k = 0 → e = { s.extents[n] with start := v }) ∧
        (k = 1 → e =
          { start := s.extents[n].start
            count := v.extractLsb' 0 24
            valid := v.getLsbD 24
            last := v.getLsbD 25
            notify := v.getLsbD 26 }))) ∧
    (let words (a n : Nat) : List Word := (List.range n).map fun k => readWord s (BitVec.ofNat 16 (a + k))
     (∀ n : Fin 16, words (0x100 + 4 * n.val) 4 = regionShown s.regions[n]) ∧
     (∀ n : Fin 4, words (0x140 + 4 * n.val) 4 = triggerShown s.triggers[n]) ∧
     (∀ n : Fin 32, words (0x180 + 2 * n.val) 2 = extentShown s.extents[n]))

/-! ## The commands (chapter 9) -/

/-- R25, R29, R48, R57, R61, R77, R99 to R103, R106, R107, R136, R174 to R176: START. It is taken in STOPPED with a placement and
a chain that pass the checks: START is RUNNING, the journal STARTING with the given generation, the positions as the placement
says, the counters of the generation at their first values, the GEN record with number 0 alone in staging, and an initialisation
begins. Otherwise it is refused, BAD_STATE first, then BAD_ARGUMENT, then EXTENT_INVALID. That on a running link the RESET_STORE
of the initialisation waits for no gap (log entry 9), and that the rise of occupancy by the GEN record either disarms or re-arms
STAGING_HIGH (log entry 35), are the model's choices; the check codes of frames are its reading (log entry 40). -/
def Obligations.StartAnswered : Prop :=
  ∀ (p : BitVec 2) (g : Half) (s : State), portOpen s = true → slotFreed s = true →
    let refused (r : Reason) : Prop := exec (.start p g) s = .next (withAnswer 1 .refused (some r) 0 0 s)
    (s.journal.state ≠ .stopped → refused .badState) ∧
    (s.journal.state = .stopped →
      (p = 2 ∨ p = 3 → refused .badArgument) ∧
      (p = 0 ∨ p = 1 → chainFrom s.extents.toList = none → refused .extentInvalid) ∧
      (∀ ch, chainFrom s.extents.toList = some ch →
        (p = 0 ∨ p = 1 → chainGood ch = false → refused .extentInvalid) ∧
        (p = 0 → chainGood ch = true → keptPositionsGood ch s.space = false → refused .extentInvalid) ∧
        (p = 1 ∨ (p = 0 ∧ keptPositionsGood ch s.space = true) → chainGood ch = true →
          ∃ (t : State) (f : GenFields), exec (.start p g) s = .next (begunInit t) ∧
            t = { s with
                  journal :=
                    { s.journal with
                      state := .starting, resume := none, generation := g, number := s.journal.number + 1,
                      slot := newRecord 1 .running none 0 0 s }
                  space := t.space
                  capture := ⟨1, 1, none, none⟩
                  staging := ⟨[⟨⟨0, .gen f⟩, 0⟩], armedAfterRise s t, .none, false⟩
                  markers := { s.markers with durableEpoch := 0, durableTag := 0, commitEpoch := none }
                  framer := ⟨g, s.words.blockSize, 0, 1, none, .none⟩
                  link := { s.link with attempts := 0, pauseReq := false, readback := none, recovery := false }
                  events.flags := t.events.flags } ∧
            (let used := if p = 1 then 0 else s.space.used
             let low := decide (chainCapacity ch - used ≤ s.words.lowSpace.toNat)
             t.space.chain = ch ∧ t.space.used = used ∧ t.space.recordedHead = none ∧ t.space.lowArmed = !low ∧
               (p = 1 → t.space.head = ⟨0, 0⟩ ∧ t.space.boundary = ⟨0, 0⟩ ∧ t.space.tail = ⟨0, 0⟩ ∧
                 t.space.origin = ⟨0, 0⟩ ∧ t.space.durableUsed = 0) ∧
               (p = 0 → t.space.head = s.space.head ∧ t.space.boundary = s.space.boundary ∧
                 t.space.tail = s.space.tail ∧ t.space.origin = s.space.head ∧
                 t.space.durableUsed = s.space.durableUsed) ∧
               t.events.flags = flagsWith ((if low then [.storeLow] else []) ++
                 (if used = chainCapacity ch then [.storeFull] else []) ++ riseEvents s t) s) ∧
            f.generation = g ∧ f.blockSize = s.words.blockSize ∧
            f.placement = (if p = 0 then .continue else .fromOrigin) ∧
            (∀ n : Fin 16, f.regionSet.getLsbD n = s.regions[n].enabled) ∧
            (∀ n : Fin 4, f.triggerSet.getLsbD n = s.triggers[n].enabled ∧
              f.fencedSet.getLsbD n = s.triggers[n].fenced))))

/-- R63, R68, R69, R161, R162, R174, R175, R178, R179: PAUSE is taken in ACTIVE with the pause request set, and asks for a PAUSE
seal: with no assembling block nothing is sealed; with a closed record in staging the seal is due; with none the block is sealed
PAUSE, with the open DATA or GAP record taken whole if the block has room for it, and without it otherwise. RESUME is taken in
PAUSING and PAUSED: it is DONE, the journal ACTIVE, the pause request clear, and a RUNNING PAUSE is ABANDONED. The Link Engine
reads R144. Either is refused BAD_STATE in the other states. That the pause request comes before the seal is the model's reading
(log entry 21). -/
def Obligations.PauseAndResume : Prop :=
  ∀ s : State, portOpen s = true →
    (slotFreed s = true →
      (s.journal.state = .active →
        exec .pause s = .next (linkChoose (requestPauseSeal
          { withRunning 4 s with journal.state := .pausing, link.pauseReq := true }))) ∧
      (s.journal.state ≠ .active → exec .pause s = .next (withAnswer 4 .refused (some .badState) 0 0 s)) ∧
      (s.journal.state ≠ .pausing → s.journal.state ≠ .paused →
        exec .resume s = .next (withAnswer 5 .refused (some .badState) 0 0 s))) ∧
    (assembling s = none → requestPauseSeal s = s) ∧
    (∀ i d, assembling s = some (i, d) →
      (hasClosed s = true → requestPauseSeal s = { s with framer.due := .pause }) ∧
      (s.staging.queue = [] →
        requestPauseSeal s = withSealed i ⟨d, s.framer.framingEpoch, .pause⟩ s) ∧
      (∀ e, s.staging.queue = [e] → hasClosed s = false → e.taken = 0 →
        let size := payloadSize s.framer.blockSize
        let whole := withWhole e d
        (size - d.payload.length < recordSize e.record →
          requestPauseSeal s = withSealed i ⟨d, s.framer.framingEpoch, .pause⟩ s) ∧
        (recordSize e.record ≤ size - d.payload.length →
          requestPauseSeal s = withSealed i
            ⟨whole, s.framer.framingEpoch, if whole.payload.length = size then .full else .pause⟩ (withOpenTaken s)))) ∧
    (s.journal.state = .pausing ∨ s.journal.state = .paused →
      slotFreed s = true ∨ (s.journal.slot.status = .running ∧ s.journal.slot.code = 4) →
      exec .resume s = .next (linkChoose
        { withAnswer 5 .done none 0 0 s with
          journal.state := .active
          journal.overtaken := overtakenRecord s
          link.pauseReq := false }))

/-- R17, R69, R84, R144, R174, R180: STOP. In ACTIVE the journal becomes DRAINING, the held write is settled, a PAUSE seal
asked for, and the FINAL MARK offered; in PAUSED the pause request is cleared first and R144 read; in DRAINING STOP waits;
elsewhere it is refused BAD_STATE. Settling loses a write held for ADMISSION of its DATA record into gap accounting, and one
in its marker wait with MARKS_LOST, both forwarded; it keeps one held for TRACKING, marked as stopped, and one held for
FENCE. That a trigger write held for ADMISSION of its DATA record raises no MARK_LOST is the model's reading (log entry 25), and
that one rise, by the GAP record, either disarms or re-arms STAGING_HIGH its choice (log entry 35). -/
def Obligations.StopAnswered : Prop :=
  ∀ s : State, portOpen s = true → slotFreed s = true →
    let u : State := { withRunning 2 s with journal.state := .draining }
    let drained (x : State) : State :=
      linkChoose { requestPauseSeal (settleHeldForStop x) with staging.finalMark := .waiting }
    (s.journal.state = .active → exec .stop s = .next (drained u)) ∧
    (s.journal.state = .paused → exec .stop s = .next (drained (linkChoose { u with link.pauseReq := false }))) ∧
    (s.journal.state = .draining → exec .stop s = .next (withRunning 2 s)) ∧
    (s.journal.state = .stopped ∨ s.journal.state = .faulted →
      exec .stop s = .next (withAnswer 2 .refused (some .badState) 0 0 s)) ∧
    (∀ x : State,
      (x.held = none → settleHeldForStop x = x) ∧
      (∀ w e tm, x.held = some ⟨w, .fence e, tm⟩ → settleHeldForStop x = x) ∧
      (∀ w q r t b tm, x.held = some ⟨w, .tracking q r t b, tm⟩ →
        settleHeldForStop x = { x with held := some ⟨w, .tracking q r t true, tm⟩ }) ∧
      (∀ w i tm, x.held = some ⟨w, .marker i, tm⟩ ∨ x.held = some ⟨w, .admitMark i, tm⟩ →
        settleHeldForStop x = withForwarded w (withMarkLost x)) ∧
      (∀ w r t f tm, x.held = some ⟨w, .admitData r t f, tm⟩ →
        settleHeldForStop x = withForwarded w (withLost w x.regions[r].label x)))

/-- R3, R17, R23, R44, R58, R75, R95, R114, R128, R168, R186, R187: HALT and SOFT_RESET in every state. The held write is
forwarded with no event, staging, window, Marker List and pending VOIDs are emptied, the tracking entries ended, the link
OFF, the journal STOPPED, a running command overtaken, and the command DONE. Unless the link was OFF, RESET_STORE is sent, cutting
a block on its way out, or waits for a frame, window or settle time in progress; also from INIT while an earlier RESET_STORE
settles. SOFT_RESET first clears flags and counters. Positions, generation and
the readback buffer stay. That a frame and a settle time in progress are let end is the model's reading, and that one RESET_STORE
serves every abandonment that waits for the same end its choice (log entry 10); so is that RESET_STORE waits for no gap (log entry
9). The check codes of frames are its reading (log entry 40). -/
def Obligations.HaltAndSoftReset : Prop :=
  ∀ (h : Instr) (code : BitVec 4) (s x : State), portOpen s = true →
    (h, code, x) = (.halt, 3, s) ∨
      (h, code, x) = (.softReset, 10, { s with events.flags := 0, counters := Vector.replicate 15 0 }) →
    let off : Link :=
      { s.link with
        state := .off, run := none, pauseReq := false, recovery := false, readback := none, attempts := 0, sendCount := 0
        idle := none }
    let t : State :=
      { x with
        held := none
        rtq :=
          ⟨s.rtq.forwardCount + (if s.held.isSome then 1 else 0), s.rtq.answerCount,
            s.rtq.tracking.map fun e =>
              { e with
                ordinal := if s.held.isSome then some (e.ordinal.getD s.rtq.forwardCount) else e.ordinal
                ended := true }, []⟩
        capture := ⟨0, 1, none, none⟩
        staging := ⟨[], true, .none, false⟩
        window := Vector.replicate 8 .free
        framer := { s.framer with serialCounter := 0, framingEpoch := 1, sealTimer := none, due := .none }
        markers := { s.markers with entries := [], commitEpoch := none }
        space.recordedHead := none
        link := off
        journal :=
          { s.journal with
            state := .stopped, resume := none, number := s.journal.number + 1, slot := newRecord code .done none 0 0 s
            overtaken := overtakenRecord s }
        events.flags := flagsWith ((if s.markers.entries = [] then [] else [.markDropped]) ++ [.commandDone]) x
        ports.downstream := s.ports.downstream ++ heldTxn s }
    (s.link.state = .off → exec h s = .next t) ∧
    (s.link.state ≠ .off →
      (s.link.phase = .settle ∨ (∃ c, s.link.phase = .frame c ∨ s.link.phase = .window c) →
        exec h s = .next { t with link.abandoning := true, link.resetDue := true }) ∧
      (s.link.phase ≠ .settle → (∀ c, s.link.phase ≠ .frame c ∧ s.link.phase ≠ .window c) →
        exec h s = .next (withFrame .resetStore 0
          { t with link.abandoning := true, ports.linkOut := s.ports.linkOut ++ cutMark s })))

/-- R28, R79, R83, R106, R111, R145, R174, R175, R182: MARK enters a marker of its tag and source COMMAND and is DONE with
the epoch it closes, or is refused BAD_STATE, RANGE or LIST_FULL. RECLAIM advances the tail by the argument word's count,
lowers used and durable-used, compares free, and is DONE with the new tail and free, in the side record beside a running
STOP; it is refused for 0 and for more than durable-used. That RECLAIM carries no operand of its own is the model's reading
(log entry 24), and that one rise either disarms or re-arms STAGING_HIGH its choice (log entry 35). -/
def Obligations.MarkAndReclaim : Prop :=
  ∀ s : State, portOpen s = true →
    (slotFreed s = true → ∀ tag : Half,
      let refused (r : Reason) : Prop := exec (.mark tag) s = .next (withAnswer 6 .refused (some r) 0 0 s)
      let room := 80 ≤ freeBytes s ∧ 3 ≤ freeSlots s ∧ s.rtq.voids = [] ∧ heldWaits s = false ∧
        s.markers.entries.length < 16
      (capturing s = false → refused .badState) ∧
      (capturing s = true → s.capture.epochCounter = 4294967295 → refused .range) ∧
      (capturing s = true → s.capture.epochCounter ≠ 4294967295 → ¬ room → refused .listFull) ∧
      (capturing s = true → s.capture.epochCounter ≠ 4294967295 → room →
        ∃ t, exec (.mark tag) s = .next t ∧
          t = { withAnswer 6 .done none s.capture.epochCounter 0 s with
                capture := ⟨s.capture.seqCounter + 1, s.capture.epochCounter + 1, none, none⟩
                staging := { s.staging with
                             queue := s.staging.queue ++
                               [⟨⟨s.capture.seqCounter, .mark ⟨s.capture.epochCounter, tag, .command, false, false⟩⟩, 0⟩]
                             highArmed := armedAfterRise s t
                             lowWritten := false }
                markers := { s.markers with entries := s.markers.entries ++
                  [⟨s.capture.epochCounter, tag, .command, false, false, s.capture.seqCounter, none, .recorded⟩] }
                events.flags := flagsWith (riseEvents s t ++ [.commandDone]) s })) ∧
    (let n := s.argWord.toNat
     let beside : Prop := s.journal.slot.status = .running ∧ s.journal.slot.code = 2
     let answer (status : CmdStatus) (reason : Option Reason) (r0 r1 : Word) (x : State) : State :=
       if slotFreed s then withAnswer 7 status reason r0 r1 x
       else
         { x with
           journal.number := s.journal.number + 1
           journal.side := some (newRecord 7 status reason r0 r1 s)
           events.flags := flagsWith [.commandDone] x }
     let left := capacity s - (s.space.used - n)
     let low := decide (left ≤ s.words.lowSpace.toNat)
     let tail := advance s.space.chain n s.space.tail
     slotFreed s = true ∨ beside →
      (n = 0 → exec .reclaim s = .next (answer .refused (some .badArgument) 0 0 s)) ∧
      (n ≠ 0 → s.space.durableUsed < n → exec .reclaim s = .next (answer .refused (some .range) 0 0 s)) ∧
      (n ≠ 0 → n ≤ s.space.durableUsed →
        exec .reclaim s = .next (linkChoose (answer .done none (positionWord tail) (BitVec.ofNat 32 left)
          { s with
            space.tail := tail
            space.used := s.space.used - n
            space.durableUsed := s.space.durableUsed - n
            space.lowArmed := !low
            events.flags := flagsWith (if low && s.space.lowArmed then [.storeLow] else []) s }))))

/-- R163, R165, R174, R175, R183, R185: READBACK is taken in STOPPED, PAUSED and FAULTED with the argument word as its address,
from READY at once, otherwise after an initialisation; RECOVER is taken in FAULTED and begins one. Each is refused BAD_STATE
elsewhere, and a code that names no command BAD_ARGUMENT. Beside a RUNNING command that does not admit it, a command is refused
BUSY in the side record, and the running one is not disturbed. That READBACK carries no operand of its own is the model's reading
(log entry 24), as are the check codes of frames (log entry 40). That the RESET_STORE of an initialisation waits for no gap, and
that READBACK in READY rests while the command gap runs, are its choices (log entry 9). -/
def Obligations.ReadbackRecoverAndBusy : Prop :=
  ∀ s : State, portOpen s = true →
    (slotFreed s = true →
      (s.journal.state = .stopped ∨ s.journal.state = .paused ∨ s.journal.state = .faulted →
        let u : State := { withRunning 8 s with link.readback := some s.argWord }
        exec .readback s = .next (if s.link.state = .ready then linkChoose u else begunInit u)) ∧
      (s.journal.state = .starting ∨ s.journal.state = .active ∨ s.journal.state = .pausing ∨ s.journal.state = .draining →
        exec .readback s = .next (withAnswer 8 .refused (some .badState) 0 0 s)) ∧
      (s.journal.state = .faulted → exec .recover s = .next (begunInit (withRunning 9 s))) ∧
      (s.journal.state ≠ .faulted → exec .recover s = .next (withAnswer 9 .refused (some .badState) 0 0 s)) ∧
      (∀ code, badCodeWellFormed code = true →
        exec (.badCommandCode code) s = .next (withAnswer code .refused (some .badArgument) 0 0 s))) ∧
    (s.journal.slot.status = .running → ∀ (h : Instr) (code : BitVec 4),
      (∃ p g, (h, code) = (.start p g, 1)) ∨ (h, code) = (.stop, 2) ∨ (h, code) = (.pause, 4) ∨
        ((h, code) = (.resume, 5) ∧ s.journal.slot.code ≠ 4) ∨ (∃ tag, (h, code) = (.mark tag, 6)) ∨
        ((h, code) = (.reclaim, 7) ∧ s.journal.slot.code ≠ 2) ∨ (h, code) = (.readback, 8) ∨ (h, code) = (.recover, 9) ∨
        h = .badCommandCode code →
      exec h s = .next
        { s with
          journal.number := s.journal.number + 1
          journal.side := some (newRecord code .refused (some .busy) 0 0 s)
          events.flags := flagsWith [.commandDone] s })
end

