-- ==== Sys2Proof/Laws/Answers.lean ====
section
/-! SUPPORT. What answering a command does, and what opening, copying into and sealing a slot of the window does. -/

namespace Sys2Proof.Machine

/-- While the management port acts on frames, a management row runs its operation. -/
theorem whenPort_next {s : State} (f : State → State) (h : portOpen s = true) : whenPort f s = .next (f s) := by
  simp [portOpen] at h; simp [whenPort, h]

/-- While it does not, nothing changes. -/
theorem whenPort_closed {s : State} (f : State → State) (h : portOpen s = false) : whenPort f s = .next s := by
  have : (s.pornLow || s.mgmtIgnore) = true := by
    revert h; unfold portOpen; cases s.pornLow <;> cases s.mgmtIgnore <;> decide
  simp only [whenPort, this, if_true]

/-- With no command RUNNING, a command's own rule answers it under the next number. -/
theorem takeCommand_free (code admitted own) (s : State) (h : slotFreed s = true) :
    takeCommand code admitted own s = own (nextNumber s) := by
  simp [slotFreed] at h
  simp [takeCommand, running, nextNumber, h]

/-- A command answered with no other RUNNING is in the slot record. -/
theorem answerCommand_free (code st re a b) (s : State) (h : slotFreed s = true) :
    answerCommand code st re a b (nextNumber s) = withAnswer code st re a b s := by
  simp [slotFreed] at h
  simp [answerCommand, running, nextNumber, h, raise, raiseIf, commandRecord, withAnswer, newRecord, flagsWith]

/-- Beside a RUNNING command that does not admit it, a command is refused BUSY in the side record. -/
theorem takeCommand_busy (code own) (s : State) (h : s.journal.slot.status = .running) :
    takeCommand code false own s =
      { s with
        journal.number := s.journal.number + 1
        journal.side := some (newRecord code .refused (some .busy) 0 0 s)
        events.flags := flagsWith [.commandDone] s } := by
  simp [takeCommand, running, nextNumber, h, refuse, answerCommand, raise, raiseIf, commandRecord, newRecord, flagsWith]

/-- HALT's and SOFT_RESET's record of the command they end. -/
theorem overtake_eq (s : State) : overtake s = { s with journal.overtaken := overtakenRecord s } := by
  unfold overtake overtakenRecord running
  by_cases h : s.journal.slot.status = .running <;> simp [h]

/-- The store bytes of a record are as many as its size. -/
theorem recordBytes_length (r : Record) : (recordBytes r).length = recordSize r := by
  unfold recordBytes fitBytes
  simp only [List.length_append, List.length_take, List.length_replicate]
  omega

/-- A seal closes the block with the framing epoch, and stops the seal timer and the due seal. -/
theorem sealBlock_eq (i d cause) (s : State) :
    sealBlock i d cause s =
      { s with
        window := s.window.set i (.sealed ⟨d, s.framer.framingEpoch, cause⟩)
        framer.sealTimer := none
        framer.due := .none
        counters := countersWith [(.blocksSealed, 1)] s } := rfl

/-- What is searched for first in a list, when the places before it change in no way that matters. -/
theorem findSome?_congr_first {α β : Type} (f g : α → Option β) (p : α → Prop) (l : List α) (b b' : β)
    (h : l.findSome? f = some b) (hp : ∀ a ∈ l, ¬ p a → g a = f a)
    (hq : ∀ a ∈ l, p a → f a = some b ∧ g a = some b') (hu : ∀ a ∈ l, f a = some b → p a) : l.findSome? g = some b' := by
  induction l with
  | nil => simp at h
  | cons a l ih =>
    rw [List.findSome?_cons] at h ⊢
    cases hf : f a with
    | none =>
      rw [hf] at h
      have : ¬ p a := fun q => by have := (hq a (by simp) q).1; rw [hf] at this; cases this
      rw [hp a (by simp) this, hf]
      exact ih h (fun x hx => hp x (by simp [hx])) (fun x hx => hq x (by simp [hx])) (fun x hx => hu x (by simp [hx]))
    | some c =>
      rw [hf] at h
      cases h
      rw [(hq a (by simp) (hu a (by simp) hf)).2]

/-- The assembling slot keeps its place when its block changes. -/
theorem assembling_setSlot (i d d') (s : State) (h : assembling s = some (i, d)) :
    assembling (setSlot i (.assembling d') s) = some (i, d') := by
  unfold assembling at h ⊢
  refine findSome?_congr_first _ _ (fun j => j = i) _ (i, d) (i, d') h ?_ ?_ ?_
  · intro a _ ha
    have : (i : Nat) ≠ a := fun e => ha (Fin.ext e.symm)
    simp [setSlot, this]
  · rintro a _ rfl
    obtain ⟨x, _, hx⟩ := List.exists_of_findSome?_eq_some h
    have ha : (slotDraft s.window[a]).map (a, ·) = some (a, d) := by
      cases hd : slotDraft s.window[x] with
      | none => rw [hd] at hx; cases hx
      | some y => rw [hd] at hx; simp at hx; obtain ⟨rfl, rfl⟩ := hx; rw [hd]; rfl
    exact ⟨ha, by simp [setSlot, slotDraft]⟩
  · intro a _ ha
    cases hd : slotDraft s.window[a] with
    | none => rw [hd] at ha; cases ha
    | some y => rw [hd] at ha; simp at ha; exact ha.1

/-- The same seal in the terms of Safety. -/
theorem sealBlock_withSealed (i d cause) (s : State) :
    sealBlock i d cause s = withSealed i ⟨d, s.framer.framingEpoch, cause⟩ s := rfl

/-- A record of which nothing was taken is added whole. -/
theorem addFragment_whole (e : Staged) (d : Draft) (h : e.taken = 0) :
    addFragment e (recordSize e.record) d = withWhole e d := by
  unfold addFragment withWhole
  simp [h, ← recordBytes_length]

/-- Whether staging holds a closed record depends on staging and the open records alone. -/
theorem hasClosed_congr (s t : State) (h : s.staging.queue = t.staging.queue) (h2 : s.capture = t.capture) :
    hasClosed s = hasClosed t := by unfold hasClosed; rw [h, h2]

/-- A slot's block is sealed, whatever the slot held. -/
theorem withSealed_setSlot (i : Fin 8) (b : Block) (x : Slot) (s : State) :
    withSealed i b (setSlot i x s) = withSealed i b s := by
  unfold withSealed setSlot; simp; rfl

/-- A due seal of the assembling block is served unless a closed record is left. -/
theorem serveIfDue_assembling (i : Fin 8) (d : Draft) (s : State) (h : assembling s = some (i, d)) :
    serveIfDue s = if s.framer.due ≠ .none && !hasClosed s then serveDue i d s else s := by
  unfold serveIfDue; rw [h]

/-- With staging empty, a due seal seals the block as it is. -/
theorem serveDue_empty (i : Fin 8) (d : Draft) (s : State) (h : s.staging.queue = []) :
    serveDue i d s = withSealed i ⟨d, s.framer.framingEpoch, if s.framer.due = .pause then .pause else .timer⟩ s := by
  unfold serveDue; rw [h]; rfl

/-- With one record left, of which nothing was taken, a due seal takes it whole if the payload has room for it. -/
theorem serveDue_one (i : Fin 8) (d : Draft) (e : Staged) (s : State) (h : s.staging.queue = [e]) (h2 : e.taken = 0) :
    serveDue i d s =
      let cause := if s.framer.due = .pause then SealCause.pause else .timer
      let size := payloadSize s.framer.blockSize
      if recordSize e.record ≤ size - d.payload.length then
        withSealed i
          ⟨withWhole e d, s.framer.framingEpoch, if (withWhole e d).payload.length = size then .full else cause⟩
          (withOpenTaken s)
      else withSealed i ⟨d, s.framer.framingEpoch, cause⟩ s := by
  unfold serveDue; rw [h]; dsimp only; rw [addFragment_whole _ _ h2]; rfl

end Sys2Proof.Machine
end

