-- ==== Sys2Proof/Laws/Memory.lean ====
section
/-! SUPPORT. The readback buffer: a fill has the canonical form, and what a read of it gives. -/

namespace Sys2Proof.Machine

/-- Cells made from a place on keep the canonical form from any lower bound on, while they stay below 4,096. -/
theorem memoryWfFrom_cellsFrom (bs : List Byte) (lo i : Nat) (h : lo ≤ i) (h' : i + bs.length ≤ 4096) :
    memoryWfFrom lo (cellsFrom i bs) = true := by
  induction bs generalizing lo i with
  | nil => rfl
  | cons b bs ih =>
    rw [List.length_cons] at h'
    unfold cellsFrom
    split
    · exact ih lo (i + 1) (by omega) (by omega)
    · have hi : i < 4096 := by omega
      simp [memoryWfFrom, ih (i + 1) (i + 1) (by omega) (by omega), h, hi]
      assumption

/-- A block in leaves the readback buffer in its canonical form, whatever it carries. -/
theorem fillBuffer_wf (size : Nat) (bytes : List Byte) : (fillBuffer size bytes).wf = true :=
  memoryWfFrom_cellsFrom _ 0 0 (by omega) (by simp [fitBytes])

/-- The readback buffer after reset has the canonical form. -/
theorem reset_buffer_wf : State.reset.buffer.wf = true := rfl

/-- Reading the cells made from a place on: the byte at that distance, 0 outside. -/
theorem memoryRead_cellsFrom (bs : List Byte) (i k : Nat) :
    memoryRead (cellsFrom i bs) k = if k < i then 0 else (bs[k - i]?).getD 0 := by
  induction bs generalizing i with
  | nil => simp [cellsFrom, memoryRead]
  | cons b bs ih =>
    unfold cellsFrom
    by_cases hb : b = 0
    · rw [if_pos hb, ih]
      by_cases h1 : k < i
      · simp [h1, show k < i + 1 by omega]
      · by_cases h2 : k = i
        · subst h2; simp [hb]
        · rw [if_neg (by omega), if_neg h1, show k - i = (k - (i + 1)) + 1 by omega]; simp
    · rw [if_neg hb]
      by_cases h2 : k = i
      · subst h2; simp [memoryRead]
      · have e : memoryRead ((i, b) :: cellsFrom (i + 1) bs) k = memoryRead (cellsFrom (i + 1) bs) k := by
          simp [memoryRead, show (i == k) = false by simp; omega]
        rw [e, ih]
        by_cases h1 : k < i
        · simp [h1, show k < i + 1 by omega]
        · rw [if_neg (by omega), if_neg h1, show k - i = (k - (i + 1)) + 1 by omega]; simp

end Sys2Proof.Machine
end

