-- ==== Sys2Proof/Laws/Link.lean ====
section
/-! SUPPORT. What the shared operations of the Link Engine do, said once: errors and FAULT, initialisations, the response and
token windows, retries, failed blocks, the end of a READBACK, the choice of R144, and the advance of the head. -/

namespace Sys2Proof.Machine

/-- A happening while PORn is high runs its operation. -/
theorem whenLive_next {s : State} (f : State → State) (h : s.pornLow = false) : whenLive f s = .next (f s) := by
  simp [whenLive, h]

/-! ## Errors, FAULT and initialisations -/

/-- An error is recorded as `withError` says. -/
theorem linkError_eq (k c tag serial addr n o s) :
    linkError k c tag serial addr n o s =
      withError ⟨k, c, tag, serial, addr, n, s.link.state, s.journal.state, o⟩ s := rfl

/-- The signal of a FAULT does to the journal what the table of R184 says, and raises COMMAND_DONE if a command fails. -/
theorem faultSignal_eq (s : State) :
    faultSignal s =
      { s with
        journal := journalAfterFault s.journal
        events.flags := flagsWith (if faultFailsCommand s.journal then [.commandDone] else []) s } := by
  unfold faultSignal
  cases hj : s.journal.state <;> by_cases hr : s.journal.slot.status = .running <;>
    simp [endRunning, running, raiseIf, hj, hr, journalAfterFault, faultFailsCommand, flagsWith]

/-- Entry to FAULT after an error is what `withFault` says. -/
theorem enterFault_eq (k c tag serial addr n s) :
    enterFault (linkError k c tag serial addr n .fault s) =
      withFault ⟨k, c, tag, serial, addr, n, s.link.state, s.journal.state, .fault⟩ s := by
  have e : ∀ l ev cs, inFlight { s with link := l, events := ev, counters := cs } = inFlight s := fun _ _ _ => rfl
  unfold enterFault
  rw [faultSignal_eq]
  simp only [withFault, linkError, returnInFlight, bump, raise, raiseIf, flagsWith, countersWith, List.foldl_append, e,
    if_true, List.foldl_cons, List.foldl_nil, counterValue] <;> rfl

/-- An initialisation begins as `begunInit` says. -/
theorem beginInit_eq (s : State) : beginInit s = begunInit s := by
  unfold beginInit begunInit
  by_cases h : s.link.abandoning = true
  · simp only [if_pos h]
  · simp only [if_neg h]
    by_cases h2 : s.link.state = .off
    · simp only [h2, beq_self_eq_true, if_true]; rfl
    · have : (s.link.state == .off) = false := by simpa using h2
      simp only [this, if_neg h2]
      rfl

/-- On a running link that is not settling an abandonment an initialisation begins with RESET_STORE. -/
theorem begunInit_running (s : State) (h : s.link.abandoning = false) (h2 : s.link.state ≠ .off) :
    begunInit s = withInit s := by
  simp [begunInit, h, h2]

/-! ## Windows -/

/-- In the window of its command, with no abandonment waiting for it, a response is handled. -/
theorem inWindow_eq (s : State) (c : LinkCmd) (f) (h : s.link.phase = .window c) (h2 : s.link.resetDue = false) :
    inWindow c f s = f s := by
  simp [inWindow, h, h2]

/-- What a short response that passes every check does, by command. -/
def takenBy : LinkCmd → State → State
  | .setup => setupTaken
  | .status => initSucceeds
  | .writeRun => writeRunTaken
  | .endRun => endRunTaken
  | .commit => awaitBusy .commit
  | .readOne => readOneTaken
  | .resetStore | .ident => id

/-- A short response in its window: a transport error, or the last store status and then a status error or the command's
effect. -/
theorem exec_responseRow (h : Instr) (bits c s) (p : s.pornLow = false) (h1 : s.link.phase = .window c)
    (h2 : s.link.resetDue = false) (r : responseRow bits c = some h) :
    exec h s = .next (match shortTransport c s.link.sentTag bits with
      | some k => transportError k c s
      | none =>
        let t := { s with link.lastStatus := some ⟨shortStatus bits, shortState bits, c⟩ }
        match shortStatusError c bits with
        | some k => statusError k c (shortStatus bits) t
        | none => takenBy c t) := by
  cases c <;> cases r <;> exact (whenLive_next _ p).trans (congrArg _ (inWindow_eq s _ _ h1 h2))

/-- A transport failure in a window is handled as a transport error of its kind. -/
theorem exec_transportFailure (h k c s) (p : s.pornLow = false) (h1 : s.link.phase = .window c)
    (h2 : s.link.resetDue = false) (t : transportFailure c s.link.sentTag k h) :
    exec h s = .next (transportError k c s) := by
  rcases t with ⟨rfl, rfl⟩ | ⟨b, r, t⟩ | ⟨rfl, b, rfl, t⟩
  · refine (whenLive_next _ p).trans (congrArg _ ?_); unfold windowTimeout; rw [h1]; exact inWindow_eq s _ _ h1 h2
  · rw [exec_responseRow h b c s p h1 h2 r, t]
  · refine (whenLive_next _ p).trans (congrArg _ ?_); unfold identResponse; rw [inWindow_eq s _ _ h1 h2]; rw [t]

/-- A token in the token window is handled by its kind. -/
theorem takeToken_eq (t : Token) (serial addr s) (h : s.link.phase = .token serial addr) :
    takeToken t s = match t with
      | .accept => acceptToken serial addr s
      | .crcBad => blockFails .tokenCrcBad false serial addr s
      | .writeFail => blockFails .tokenWriteFail true serial addr s
      | .range => blockFails .tokenRange false serial addr s
      | .invalid => blockFails .tokenInvalid true serial addr s := by
  cases t <;> simp only [takeToken, inTokenWindow, h]

/-! ## Retries, failed blocks and READBACK -/

/-- Within the retry limit a command is sent again after the command gap. -/
theorem retryOrFail_within (k c s) (h : s.link.sendCount + 1 ≤ s.words.retryLimit.toNat) :
    retryOrFail k c s =
      { s with
        link.phase := .gap c
        link.sendCount := s.link.sendCount + 1
        link.lastError := some
          ⟨k, c, s.link.sentTag, none, commandAddress c s, s.link.sendCount + 1, s.link.state, s.journal.state, .retry⟩
        counters := countersWith [(.linkErrors, 1), (.retries, 1)] s
        events.flags := flagsWith [.linkError] s } := by
  unfold retryOrFail; simp only [h]; rfl

/-- A failed block within the retry limit returns to SEALED and the link goes to RECOVERING. -/
theorem blockFails_within (k awaits serial addr s i b) (h : inFlight s = some (i, b)) (hk : k ≠ .tokenRange)
    (hn : s.link.attempts + 1 ≤ s.words.retryLimit.toNat) :
    blockFails k awaits serial addr s =
      { s with
        window := s.window.set i (.sealed b)
        link.attempts := s.link.attempts + 1
        link.state := .recovering
        link.recovery := true
        link.sendCount := if awaits then s.link.sendCount else 0
        link.phase := if awaits then .busyToken serial addr s.words.busyLimit else .gap .endRun
        link.lastError := some
          ⟨k, .writeRun, runTag s, some serial, some addr, s.link.attempts + 1, s.link.state, s.journal.state, .recovery⟩
        counters := countersWith [(.linkErrors, 1), (.retries, 1)] s
        events.flags := flagsWith [.linkError] s } := by
  unfold blockFails returnInFlight; rw [h]; dsimp only
  have : (decide (s.link.attempts + 1 ≤ s.words.retryLimit.toNat) && k != .tokenRange) = true := by simp [hn, hk]
  simp only [this, if_true]; cases awaits <;> rfl

/-- A block that fails beyond the retry limit, or by RANGE, returns to SEALED and the link goes to FAULT. -/
theorem blockFails_beyond (k awaits serial addr s i b) (h : inFlight s = some (i, b))
    (hk : k = .tokenRange ∨ s.words.retryLimit.toNat < s.link.attempts + 1) :
    blockFails k awaits serial addr s =
      withFault
        ⟨k, .writeRun, runTag s, some serial, some addr, s.link.attempts + 1, s.link.state, s.journal.state, .fault⟩
        { s with window := s.window.set i (.sealed b), link.attempts := s.link.attempts + 1 } := by
  unfold blockFails returnInFlight; rw [h]; dsimp only
  have : (decide (s.link.attempts + 1 ≤ s.words.retryLimit.toNat) && k != .tokenRange) = false := by
    rcases hk with h | h
    · simp [h]
    · simp [show ¬ (s.link.attempts + 1 ≤ s.words.retryLimit.toNat) by omega]
  simp only [this, Bool.false_eq_true, if_false]
  exact enterFault_eq k .writeRun _ _ _ _
    { s with window := s.window.set i (.sealed b), link.attempts := s.link.attempts + 1 }

/-- A running READBACK that ends without DONE leaves the link READY and its record ended. -/
theorem endReadback_failed (s : State) (status reason) (h : s.journal.slot.status = .running) (d : status ≠ .done) :
    endReadback status reason s =
      { s with
        link.state := .ready
        link.phase := .rest true true
        link.readback := none
        journal.slot := endedSlot status reason 0 s
        events.flags := flagsWith [.commandDone] s } := by
  simp [endReadback, restIn, endRunning, running, h, raiseIf, d, endedSlot, flagsWith]

/-- A running READBACK that is DONE shows its address. -/
theorem endReadback_done (s : State) (a) (h : s.journal.slot.status = .running) (d : s.link.readback = some a) :
    endReadback .done none s =
      { s with
        link.state := .ready
        link.phase := .rest true true
        link.readback := none
        journal.slot := endedSlot .done none a s
        events.flags := flagsWith [.commandDone] s } := by
  simp [endReadback, restIn, endRunning, running, h, raiseIf, d, endedSlot, flagsWith]

/-! ## The choice of R144 -/

/-- The sending states of the model are those of `sends`. -/
theorem sendingState_of_sends {s : State} (h : sends s = true) : sendingState s = true := by
  revert h; unfold sends sendingState; cases s.journal.state <;> decide

/-- A link at rest acts on its choice. -/
theorem linkChoose_rest {s : State} {g d} (h : s.link.phase = .rest g d) (h2 : choose s ≠ .closeRun) :
    linkChoose s = act g d s (choose s) := by
  unfold linkChoose; rw [h]; simp [h2]

/-- The lines of R144 with the link READY. -/
theorem choose_ready (s : State) (h : s.link.state = .ready) (h2 : sends s = true) (h3 : s.link.readback = none) :
    choose s =
      if commitOwed s then .command .commit
      else if s.link.pauseReq then .boundary
      else if hasSealed s && decide (0 < freeBlocks s) then .command .writeRun
      else .nothing := by
  simp [choose, h, chooseReady, sendingState_of_sends h2, h3]

/-- Lines 1 and 2 of R144 with the link IN_RUN. -/
theorem choose_inRun_end (s : State) (h : s.link.state = .inRun) (h2 : sends s = true)
    (h3 : commitOwed s = true ∨ s.link.pauseReq = true) : choose s = .command .endRun := by
  simp [choose, h, chooseInRun, sendingState_of_sends h2]; rcases h3 with h | h <;> simp [h]

/-- Lines 3 to 7 of R144 with the link IN_RUN. -/
theorem choose_inRun (s : State) (r : Run) (h : s.link.state = .inRun) (h2 : sends s = true) (h3 : commitOwed s = false)
    (h4 : s.link.pauseReq = false) (h5 : s.link.run = some r) :
    choose s =
      if r.remaining = 0 then (if r.count ≤ 255 then .closeRun else .command .endRun)
      else if hasSealed s then (if 0 < freeBlocks s then .block else .nothing)
      else .idle := by
  simp [choose, h, chooseInRun, sendingState_of_sends h2, h3, h4, h5]

/-! ## The head -/

/-- An ACCEPT advances the head by one block and raises what it meets. -/
theorem advanceHead_eq (s : State) :
    let used := s.space.used + 1
    let low := decide (capacity s - used ≤ s.words.lowSpace.toNat)
    advanceHead s =
      { s with
        space.head := advanceOne s.space.chain s.space.head
        space.used := used
        space.lowArmed := !low
        counters := countersWith [(.blocksAccepted, 1)] s
        events.flags := flagsWith ((if headLeavesEntry s && headNotifies s then [.extentNotify] else []) ++
          (if low && s.space.lowArmed then [.storeLow] else []) ++ (if used = capacity s then [.storeFull] else [])) s } := by
  intro used low
  have e : ∀ (c : Bool) (ev : Event) (m : Half),
      List.foldl (fun m e => m ||| (eventBit e &&& s.events.enables)) m (if c = true then [ev] else []) =
        m ||| (if c = true then eventBit ev &&& s.events.enables else 0) := by
    intro c ev m; cases c <;> simp
  have e' : ∀ (c : Prop) [Decidable c] (ev : Event) (m : Half),
      List.foldl (fun m e => m ||| (eventBit e &&& s.events.enables)) m (if c then [ev] else []) =
        m ||| (if decide c = true then eventBit ev &&& s.events.enables else 0) := by
    intro c _ ev m; by_cases h : c <;> simp [h]
  unfold advanceHead compareLow
  simp only [flagsWith, List.foldl_append, e, e', raiseIf, bump]
  rfl

end Sys2Proof.Machine
end

