-- ==== Sys2Proof/Laws/State.lean ====
section
/-! SUPPORT. What each update of the state leaves as it was, field by field: every equation holds by unfolding and is a rewrite
rule, so that no later proof unfolds a record update. -/

namespace Sys2Proof.Machine

@[simp] theorem raiseIf_keeps (s : State) (c : Bool) (e : Event) :
    (raiseIf c e s).pornLow = s.pornLow ∧ (raiseIf c e s).mgmtIgnore = s.mgmtIgnore ∧ (raiseIf c e s).held = s.held ∧
      (raiseIf c e s).regions = s.regions ∧ (raiseIf c e s).triggers = s.triggers ∧ (raiseIf c e s).extents = s.extents ∧
      (raiseIf c e s).words = s.words ∧ (raiseIf c e s).argWord = s.argWord ∧ (raiseIf c e s).rtq = s.rtq ∧
      (raiseIf c e s).capture = s.capture ∧ (raiseIf c e s).staging = s.staging ∧ (raiseIf c e s).framer = s.framer ∧
      (raiseIf c e s).window = s.window ∧ (raiseIf c e s).markers = s.markers ∧ (raiseIf c e s).space = s.space ∧
      (raiseIf c e s).link = s.link ∧ (raiseIf c e s).buffer = s.buffer ∧ (raiseIf c e s).journal = s.journal ∧
      (raiseIf c e s).events.enables = s.events.enables ∧ (raiseIf c e s).events.lineEnables = s.events.lineEnables ∧
      (raiseIf c e s).counters = s.counters ∧ (raiseIf c e s).ports = s.ports ∧ (raiseIf c e s).pending = s.pending :=
  ⟨rfl, rfl, rfl, rfl, rfl, rfl, rfl, rfl, rfl, rfl, rfl, rfl, rfl, rfl, rfl, rfl, rfl, rfl, rfl, rfl, rfl, rfl, rfl⟩

@[simp] theorem raise_keeps (s : State) (e : Event) :
    (raise e s).pornLow = s.pornLow ∧ (raise e s).mgmtIgnore = s.mgmtIgnore ∧ (raise e s).held = s.held ∧
      (raise e s).regions = s.regions ∧ (raise e s).triggers = s.triggers ∧ (raise e s).extents = s.extents ∧
      (raise e s).words = s.words ∧ (raise e s).argWord = s.argWord ∧ (raise e s).rtq = s.rtq ∧
      (raise e s).capture = s.capture ∧ (raise e s).staging = s.staging ∧ (raise e s).framer = s.framer ∧
      (raise e s).window = s.window ∧ (raise e s).markers = s.markers ∧ (raise e s).space = s.space ∧
      (raise e s).link = s.link ∧ (raise e s).buffer = s.buffer ∧ (raise e s).journal = s.journal ∧
      (raise e s).events.enables = s.events.enables ∧ (raise e s).events.lineEnables = s.events.lineEnables ∧
      (raise e s).counters = s.counters ∧ (raise e s).ports = s.ports ∧ (raise e s).pending = s.pending :=
  by simp [raise]

@[simp] theorem clearFlags_keeps (s : State) (v : Half) :
    (clearFlags v s).pornLow = s.pornLow ∧ (clearFlags v s).mgmtIgnore = s.mgmtIgnore ∧ (clearFlags v s).held = s.held ∧
      (clearFlags v s).regions = s.regions ∧ (clearFlags v s).triggers = s.triggers ∧
      (clearFlags v s).extents = s.extents ∧ (clearFlags v s).words = s.words ∧ (clearFlags v s).argWord = s.argWord ∧
      (clearFlags v s).rtq = s.rtq ∧ (clearFlags v s).capture = s.capture ∧ (clearFlags v s).staging = s.staging ∧
      (clearFlags v s).framer = s.framer ∧ (clearFlags v s).window = s.window ∧ (clearFlags v s).markers = s.markers ∧
      (clearFlags v s).space = s.space ∧ (clearFlags v s).link = s.link ∧ (clearFlags v s).buffer = s.buffer ∧
      (clearFlags v s).journal = s.journal ∧ (clearFlags v s).events.enables = s.events.enables ∧
      (clearFlags v s).events.lineEnables = s.events.lineEnables ∧ (clearFlags v s).counters = s.counters ∧
      (clearFlags v s).ports = s.ports ∧ (clearFlags v s).pending = s.pending :=
  ⟨rfl, rfl, rfl, rfl, rfl, rfl, rfl, rfl, rfl, rfl, rfl, rfl, rfl, rfl, rfl, rfl, rfl, rfl, rfl, rfl, rfl, rfl, rfl⟩

@[simp] theorem forceFlags_keeps (s : State) (v : Half) :
    (forceFlags v s).pornLow = s.pornLow ∧ (forceFlags v s).mgmtIgnore = s.mgmtIgnore ∧ (forceFlags v s).held = s.held ∧
      (forceFlags v s).regions = s.regions ∧ (forceFlags v s).triggers = s.triggers ∧
      (forceFlags v s).extents = s.extents ∧ (forceFlags v s).words = s.words ∧ (forceFlags v s).argWord = s.argWord ∧
      (forceFlags v s).rtq = s.rtq ∧ (forceFlags v s).capture = s.capture ∧ (forceFlags v s).staging = s.staging ∧
      (forceFlags v s).framer = s.framer ∧ (forceFlags v s).window = s.window ∧ (forceFlags v s).markers = s.markers ∧
      (forceFlags v s).space = s.space ∧ (forceFlags v s).link = s.link ∧ (forceFlags v s).buffer = s.buffer ∧
      (forceFlags v s).journal = s.journal ∧ (forceFlags v s).events.enables = s.events.enables ∧
      (forceFlags v s).events.lineEnables = s.events.lineEnables ∧ (forceFlags v s).counters = s.counters ∧
      (forceFlags v s).ports = s.ports ∧ (forceFlags v s).pending = s.pending :=
  ⟨rfl, rfl, rfl, rfl, rfl, rfl, rfl, rfl, rfl, rfl, rfl, rfl, rfl, rfl, rfl, rfl, rfl, rfl, rfl, rfl, rfl, rfl, rfl⟩

@[simp] theorem setEnables_keeps (s : State) (v : Half) :
    (setEnables v s).pornLow = s.pornLow ∧ (setEnables v s).mgmtIgnore = s.mgmtIgnore ∧ (setEnables v s).held = s.held ∧
      (setEnables v s).regions = s.regions ∧ (setEnables v s).triggers = s.triggers ∧
      (setEnables v s).extents = s.extents ∧ (setEnables v s).words = s.words ∧ (setEnables v s).argWord = s.argWord ∧
      (setEnables v s).rtq = s.rtq ∧ (setEnables v s).capture = s.capture ∧ (setEnables v s).staging = s.staging ∧
      (setEnables v s).framer = s.framer ∧ (setEnables v s).window = s.window ∧ (setEnables v s).markers = s.markers ∧
      (setEnables v s).space = s.space ∧ (setEnables v s).link = s.link ∧ (setEnables v s).buffer = s.buffer ∧
      (setEnables v s).journal = s.journal ∧ (setEnables v s).events.flags = s.events.flags ∧
      (setEnables v s).events.lineEnables = s.events.lineEnables ∧ (setEnables v s).counters = s.counters ∧
      (setEnables v s).ports = s.ports ∧ (setEnables v s).pending = s.pending :=
  ⟨rfl, rfl, rfl, rfl, rfl, rfl, rfl, rfl, rfl, rfl, rfl, rfl, rfl, rfl, rfl, rfl, rfl, rfl, rfl, rfl, rfl, rfl, rfl⟩

@[simp] theorem setLineEnables_keeps (s : State) (v : Half) :
    (setLineEnables v s).pornLow = s.pornLow ∧ (setLineEnables v s).mgmtIgnore = s.mgmtIgnore ∧
      (setLineEnables v s).held = s.held ∧ (setLineEnables v s).regions = s.regions ∧
      (setLineEnables v s).triggers = s.triggers ∧ (setLineEnables v s).extents = s.extents ∧
      (setLineEnables v s).words = s.words ∧ (setLineEnables v s).argWord = s.argWord ∧ (setLineEnables v s).rtq = s.rtq ∧
      (setLineEnables v s).capture = s.capture ∧ (setLineEnables v s).staging = s.staging ∧
      (setLineEnables v s).framer = s.framer ∧ (setLineEnables v s).window = s.window ∧
      (setLineEnables v s).markers = s.markers ∧ (setLineEnables v s).space = s.space ∧
      (setLineEnables v s).link = s.link ∧ (setLineEnables v s).buffer = s.buffer ∧
      (setLineEnables v s).journal = s.journal ∧ (setLineEnables v s).events.flags = s.events.flags ∧
      (setLineEnables v s).events.enables = s.events.enables ∧ (setLineEnables v s).counters = s.counters ∧
      (setLineEnables v s).ports = s.ports ∧ (setLineEnables v s).pending = s.pending :=
  ⟨rfl, rfl, rfl, rfl, rfl, rfl, rfl, rfl, rfl, rfl, rfl, rfl, rfl, rfl, rfl, rfl, rfl, rfl, rfl, rfl, rfl, rfl, rfl⟩

@[simp] theorem bump_keeps (s : State) (c : Counter) (n : Nat) :
    (bump c n s).pornLow = s.pornLow ∧ (bump c n s).mgmtIgnore = s.mgmtIgnore ∧ (bump c n s).held = s.held ∧
      (bump c n s).regions = s.regions ∧ (bump c n s).triggers = s.triggers ∧ (bump c n s).extents = s.extents ∧
      (bump c n s).words = s.words ∧ (bump c n s).argWord = s.argWord ∧ (bump c n s).rtq = s.rtq ∧
      (bump c n s).capture = s.capture ∧ (bump c n s).staging = s.staging ∧ (bump c n s).framer = s.framer ∧
      (bump c n s).window = s.window ∧ (bump c n s).markers = s.markers ∧ (bump c n s).space = s.space ∧
      (bump c n s).link = s.link ∧ (bump c n s).buffer = s.buffer ∧ (bump c n s).journal = s.journal ∧
      (bump c n s).events = s.events ∧ (bump c n s).ports = s.ports ∧ (bump c n s).pending = s.pending :=
  ⟨rfl, rfl, rfl, rfl, rfl, rfl, rfl, rfl, rfl, rfl, rfl, rfl, rfl, rfl, rfl, rfl, rfl, rfl, rfl, rfl, rfl⟩

@[simp] theorem clearCounter_keeps (s : State) (i : Fin 15) :
    (clearCounter i s).pornLow = s.pornLow ∧ (clearCounter i s).mgmtIgnore = s.mgmtIgnore ∧
      (clearCounter i s).held = s.held ∧ (clearCounter i s).regions = s.regions ∧
      (clearCounter i s).triggers = s.triggers ∧ (clearCounter i s).extents = s.extents ∧
      (clearCounter i s).words = s.words ∧ (clearCounter i s).argWord = s.argWord ∧ (clearCounter i s).rtq = s.rtq ∧
      (clearCounter i s).capture = s.capture ∧ (clearCounter i s).staging = s.staging ∧
      (clearCounter i s).framer = s.framer ∧ (clearCounter i s).window = s.window ∧
      (clearCounter i s).markers = s.markers ∧ (clearCounter i s).space = s.space ∧ (clearCounter i s).link = s.link ∧
      (clearCounter i s).buffer = s.buffer ∧ (clearCounter i s).journal = s.journal ∧
      (clearCounter i s).events = s.events ∧ (clearCounter i s).ports = s.ports ∧ (clearCounter i s).pending = s.pending :=
  ⟨rfl, rfl, rfl, rfl, rfl, rfl, rfl, rfl, rfl, rfl, rfl, rfl, rfl, rfl, rfl, rfl, rfl, rfl, rfl, rfl, rfl⟩

@[simp] theorem clearEvents_keeps (s : State) :
    (clearEvents s).pornLow = s.pornLow ∧ (clearEvents s).mgmtIgnore = s.mgmtIgnore ∧ (clearEvents s).held = s.held ∧
      (clearEvents s).regions = s.regions ∧ (clearEvents s).triggers = s.triggers ∧ (clearEvents s).extents = s.extents ∧
      (clearEvents s).words = s.words ∧ (clearEvents s).argWord = s.argWord ∧ (clearEvents s).rtq = s.rtq ∧
      (clearEvents s).capture = s.capture ∧ (clearEvents s).staging = s.staging ∧ (clearEvents s).framer = s.framer ∧
      (clearEvents s).window = s.window ∧ (clearEvents s).markers = s.markers ∧ (clearEvents s).space = s.space ∧
      (clearEvents s).link = s.link ∧ (clearEvents s).buffer = s.buffer ∧ (clearEvents s).journal = s.journal ∧
      (clearEvents s).events.enables = s.events.enables ∧ (clearEvents s).events.lineEnables = s.events.lineEnables ∧
      (clearEvents s).ports = s.ports ∧ (clearEvents s).pending = s.pending :=
  ⟨rfl, rfl, rfl, rfl, rfl, rfl, rfl, rfl, rfl, rfl, rfl, rfl, rfl, rfl, rfl, rfl, rfl, rfl, rfl, rfl, rfl, rfl⟩

@[simp] theorem compareRise_keeps (s : State) :
    (compareRise s).pornLow = s.pornLow ∧ (compareRise s).mgmtIgnore = s.mgmtIgnore ∧ (compareRise s).held = s.held ∧
      (compareRise s).regions = s.regions ∧ (compareRise s).triggers = s.triggers ∧ (compareRise s).extents = s.extents ∧
      (compareRise s).words = s.words ∧ (compareRise s).argWord = s.argWord ∧ (compareRise s).rtq = s.rtq ∧
      (compareRise s).capture = s.capture ∧ (compareRise s).staging.queue = s.staging.queue ∧
      (compareRise s).staging.finalMark = s.staging.finalMark ∧ (compareRise s).framer = s.framer ∧
      (compareRise s).window = s.window ∧ (compareRise s).markers = s.markers ∧ (compareRise s).space = s.space ∧
      (compareRise s).link = s.link ∧ (compareRise s).buffer = s.buffer ∧ (compareRise s).journal = s.journal ∧
      (compareRise s).events.enables = s.events.enables ∧ (compareRise s).events.lineEnables = s.events.lineEnables ∧
      (compareRise s).counters = s.counters ∧ (compareRise s).ports = s.ports ∧ (compareRise s).pending = s.pending :=
  ⟨rfl, rfl, rfl, rfl, rfl, rfl, rfl, rfl, rfl, rfl, rfl, rfl, rfl, rfl, rfl, rfl, rfl, rfl, rfl, rfl, rfl, rfl, rfl, rfl⟩

@[simp] theorem compareFall_keeps (s : State) :
    (compareFall s).pornLow = s.pornLow ∧ (compareFall s).mgmtIgnore = s.mgmtIgnore ∧ (compareFall s).held = s.held ∧
      (compareFall s).regions = s.regions ∧ (compareFall s).triggers = s.triggers ∧ (compareFall s).extents = s.extents ∧
      (compareFall s).words = s.words ∧ (compareFall s).argWord = s.argWord ∧ (compareFall s).rtq = s.rtq ∧
      (compareFall s).capture = s.capture ∧ (compareFall s).staging.queue = s.staging.queue ∧
      (compareFall s).staging.finalMark = s.staging.finalMark ∧ (compareFall s).framer = s.framer ∧
      (compareFall s).window = s.window ∧ (compareFall s).markers = s.markers ∧ (compareFall s).space = s.space ∧
      (compareFall s).link = s.link ∧ (compareFall s).buffer = s.buffer ∧ (compareFall s).journal = s.journal ∧
      (compareFall s).events = s.events ∧ (compareFall s).counters = s.counters ∧ (compareFall s).ports = s.ports ∧
      (compareFall s).pending = s.pending :=
  ⟨rfl, rfl, rfl, rfl, rfl, rfl, rfl, rfl, rfl, rfl, rfl, rfl, rfl, rfl, rfl, rfl, rfl, rfl, rfl, rfl, rfl, rfl, rfl⟩

/-- A change of occupancy uses up a low watermark written before it (R56). -/
@[simp] theorem compareRise_lowWritten (s : State) : (compareRise s).staging.lowWritten = false := rfl

@[simp] theorem compareFall_lowWritten (s : State) : (compareFall s).staging.lowWritten = false := rfl

@[simp] theorem writeLowWatermark_keeps (v : Word) (s : State) :
    (writeLowWatermark v s).staging.queue = s.staging.queue ∧ (writeLowWatermark v s).staging.highArmed = s.staging.highArmed ∧
      (writeLowWatermark v s).staging.finalMark = s.staging.finalMark ∧ (writeLowWatermark v s).events = s.events ∧
      (writeLowWatermark v s).pending = s.pending := ⟨rfl, rfl, rfl, rfl, rfl⟩

@[simp] theorem enterRecord_keeps (s : State) (b : Body) :
    (enterRecord b s).pornLow = s.pornLow ∧ (enterRecord b s).mgmtIgnore = s.mgmtIgnore ∧ (enterRecord b s).held = s.held ∧
      (enterRecord b s).regions = s.regions ∧ (enterRecord b s).triggers = s.triggers ∧
      (enterRecord b s).extents = s.extents ∧ (enterRecord b s).words = s.words ∧ (enterRecord b s).argWord = s.argWord ∧
      (enterRecord b s).rtq = s.rtq ∧ (enterRecord b s).capture.epochCounter = s.capture.epochCounter ∧
      (enterRecord b s).staging.finalMark = s.staging.finalMark ∧ (enterRecord b s).framer = s.framer ∧
      (enterRecord b s).window = s.window ∧ (enterRecord b s).markers = s.markers ∧ (enterRecord b s).space = s.space ∧
      (enterRecord b s).link = s.link ∧ (enterRecord b s).buffer = s.buffer ∧ (enterRecord b s).journal = s.journal ∧
      (enterRecord b s).events.enables = s.events.enables ∧ (enterRecord b s).events.lineEnables = s.events.lineEnables ∧
      (enterRecord b s).counters = s.counters ∧ (enterRecord b s).ports = s.ports ∧ (enterRecord b s).pending = s.pending :=
  ⟨rfl, rfl, rfl, rfl, rfl, rfl, rfl, rfl, rfl, rfl, rfl, rfl, rfl, rfl, rfl, rfl, rfl, rfl, rfl, rfl, rfl, rfl, rfl⟩

@[simp] theorem countCaptured_keeps (s : State) (w : WriteTxn) :
    (countCaptured w s).pornLow = s.pornLow ∧ (countCaptured w s).mgmtIgnore = s.mgmtIgnore ∧
      (countCaptured w s).held = s.held ∧ (countCaptured w s).regions = s.regions ∧
      (countCaptured w s).triggers = s.triggers ∧ (countCaptured w s).extents = s.extents ∧
      (countCaptured w s).words = s.words ∧ (countCaptured w s).argWord = s.argWord ∧ (countCaptured w s).rtq = s.rtq ∧
      (countCaptured w s).capture = s.capture ∧ (countCaptured w s).staging = s.staging ∧
      (countCaptured w s).framer = s.framer ∧ (countCaptured w s).window = s.window ∧
      (countCaptured w s).markers = s.markers ∧ (countCaptured w s).space = s.space ∧ (countCaptured w s).link = s.link ∧
      (countCaptured w s).buffer = s.buffer ∧ (countCaptured w s).journal = s.journal ∧
      (countCaptured w s).events = s.events ∧ (countCaptured w s).ports = s.ports ∧
      (countCaptured w s).pending = s.pending :=
  by simp [countCaptured]

@[simp] theorem enterData_keeps (s : State) (w : WriteTxn) (r : Fin 16) (f : DataFields) :
    (enterData w r f s).pornLow = s.pornLow ∧ (enterData w r f s).mgmtIgnore = s.mgmtIgnore ∧
      (enterData w r f s).held = s.held ∧ (enterData w r f s).regions = s.regions ∧
      (enterData w r f s).triggers = s.triggers ∧ (enterData w r f s).extents = s.extents ∧
      (enterData w r f s).words = s.words ∧ (enterData w r f s).argWord = s.argWord ∧ (enterData w r f s).rtq = s.rtq ∧
      (enterData w r f s).capture.epochCounter = s.capture.epochCounter ∧
      (enterData w r f s).staging.finalMark = s.staging.finalMark ∧ (enterData w r f s).framer = s.framer ∧
      (enterData w r f s).window = s.window ∧ (enterData w r f s).markers = s.markers ∧
      (enterData w r f s).space = s.space ∧ (enterData w r f s).link = s.link ∧ (enterData w r f s).buffer = s.buffer ∧
      (enterData w r f s).journal = s.journal ∧ (enterData w r f s).events.enables = s.events.enables ∧
      (enterData w r f s).events.lineEnables = s.events.lineEnables ∧ (enterData w r f s).ports = s.ports ∧
      (enterData w r f s).pending = s.pending :=
  by simp [enterData]

@[simp] theorem forwardWrite_keeps (s : State) (w : WriteTxn) :
    (forwardWrite w s).pornLow = s.pornLow ∧ (forwardWrite w s).mgmtIgnore = s.mgmtIgnore ∧
      (forwardWrite w s).held = s.held ∧ (forwardWrite w s).regions = s.regions ∧
      (forwardWrite w s).triggers = s.triggers ∧ (forwardWrite w s).extents = s.extents ∧
      (forwardWrite w s).words = s.words ∧ (forwardWrite w s).argWord = s.argWord ∧
      (forwardWrite w s).rtq.answerCount = s.rtq.answerCount ∧ (forwardWrite w s).rtq.voids = s.rtq.voids ∧
      (forwardWrite w s).capture = s.capture ∧ (forwardWrite w s).staging = s.staging ∧
      (forwardWrite w s).framer = s.framer ∧ (forwardWrite w s).window = s.window ∧
      (forwardWrite w s).markers = s.markers ∧ (forwardWrite w s).space = s.space ∧ (forwardWrite w s).link = s.link ∧
      (forwardWrite w s).buffer = s.buffer ∧ (forwardWrite w s).journal = s.journal ∧
      (forwardWrite w s).events = s.events ∧ (forwardWrite w s).counters = s.counters ∧
      (forwardWrite w s).ports.taken = s.ports.taken ∧ (forwardWrite w s).ports.upstream = s.ports.upstream ∧
      (forwardWrite w s).ports.linkOut = s.ports.linkOut ∧
      (forwardWrite w s).ports.mgmtOut = s.ports.mgmtOut ∧ (forwardWrite w s).pending = s.pending :=
  ⟨rfl, rfl, rfl, rfl, rfl, rfl, rfl, rfl, rfl, rfl, rfl, rfl, rfl, rfl, rfl, rfl, rfl, rfl, rfl, rfl, rfl, rfl, rfl, rfl, rfl, rfl⟩

@[simp] theorem forwardRead_keeps (s : State) (r : ReadTxn) :
    (forwardRead r s).pornLow = s.pornLow ∧ (forwardRead r s).mgmtIgnore = s.mgmtIgnore ∧ (forwardRead r s).held = s.held ∧
      (forwardRead r s).regions = s.regions ∧ (forwardRead r s).triggers = s.triggers ∧
      (forwardRead r s).extents = s.extents ∧ (forwardRead r s).words = s.words ∧ (forwardRead r s).argWord = s.argWord ∧
      (forwardRead r s).rtq = s.rtq ∧ (forwardRead r s).capture = s.capture ∧ (forwardRead r s).staging = s.staging ∧
      (forwardRead r s).framer = s.framer ∧ (forwardRead r s).window = s.window ∧ (forwardRead r s).markers = s.markers ∧
      (forwardRead r s).space = s.space ∧ (forwardRead r s).link = s.link ∧ (forwardRead r s).buffer = s.buffer ∧
      (forwardRead r s).journal = s.journal ∧ (forwardRead r s).events = s.events ∧
      (forwardRead r s).counters = s.counters ∧ (forwardRead r s).ports.taken = s.ports.taken ∧
      (forwardRead r s).ports.upstream = s.ports.upstream ∧ (forwardRead r s).ports.linkOut = s.ports.linkOut ∧
      (forwardRead r s).ports.mgmtOut = s.ports.mgmtOut ∧ (forwardRead r s).pending = s.pending :=
  ⟨rfl, rfl, rfl, rfl, rfl, rfl, rfl, rfl, rfl, rfl, rfl, rfl, rfl, rfl, rfl, rfl, rfl, rfl, rfl, rfl, rfl, rfl, rfl, rfl, rfl⟩

@[simp] theorem noteTaken_keeps (s : State) (t : Txn) :
    (noteTaken t s).pornLow = s.pornLow ∧ (noteTaken t s).mgmtIgnore = s.mgmtIgnore ∧ (noteTaken t s).held = s.held ∧
      (noteTaken t s).regions = s.regions ∧ (noteTaken t s).triggers = s.triggers ∧ (noteTaken t s).extents = s.extents ∧
      (noteTaken t s).words = s.words ∧ (noteTaken t s).argWord = s.argWord ∧ (noteTaken t s).rtq = s.rtq ∧
      (noteTaken t s).capture = s.capture ∧ (noteTaken t s).staging = s.staging ∧ (noteTaken t s).framer = s.framer ∧
      (noteTaken t s).window = s.window ∧ (noteTaken t s).markers = s.markers ∧ (noteTaken t s).space = s.space ∧
      (noteTaken t s).link = s.link ∧ (noteTaken t s).buffer = s.buffer ∧ (noteTaken t s).journal = s.journal ∧
      (noteTaken t s).events = s.events ∧ (noteTaken t s).counters = s.counters ∧
      (noteTaken t s).ports.downstream = s.ports.downstream ∧ (noteTaken t s).ports.upstream = s.ports.upstream ∧
      (noteTaken t s).ports.linkOut = s.ports.linkOut ∧
      (noteTaken t s).ports.mgmtOut = s.ports.mgmtOut ∧ (noteTaken t s).pending = s.pending :=
  ⟨rfl, rfl, rfl, rfl, rfl, rfl, rfl, rfl, rfl, rfl, rfl, rfl, rfl, rfl, rfl, rfl, rfl, rfl, rfl, rfl, rfl, rfl, rfl, rfl, rfl⟩

@[simp] theorem noteCut_keeps (s : State) :
    (noteCut s).pornLow = s.pornLow ∧ (noteCut s).mgmtIgnore = s.mgmtIgnore ∧ (noteCut s).held = s.held ∧
      (noteCut s).regions = s.regions ∧ (noteCut s).triggers = s.triggers ∧ (noteCut s).extents = s.extents ∧
      (noteCut s).words = s.words ∧ (noteCut s).argWord = s.argWord ∧ (noteCut s).rtq = s.rtq ∧
      (noteCut s).capture = s.capture ∧ (noteCut s).staging = s.staging ∧ (noteCut s).framer = s.framer ∧
      (noteCut s).window = s.window ∧ (noteCut s).markers = s.markers ∧ (noteCut s).space = s.space ∧
      (noteCut s).link = s.link ∧ (noteCut s).buffer = s.buffer ∧ (noteCut s).journal = s.journal ∧
      (noteCut s).events = s.events ∧ (noteCut s).counters = s.counters ∧ (noteCut s).ports.taken = s.ports.taken ∧
      (noteCut s).ports.downstream = s.ports.downstream ∧ (noteCut s).ports.upstream = s.ports.upstream ∧
      (noteCut s).ports.mgmtOut = s.ports.mgmtOut ∧ (noteCut s).pending = s.pending :=
  ⟨rfl, rfl, rfl, rfl, rfl, rfl, rfl, rfl, rfl, rfl, rfl, rfl, rfl, rfl, rfl, rfl, rfl, rfl, rfl, rfl, rfl, rfl, rfl, rfl, rfl⟩

@[simp] theorem noteShifted_keeps (s : State) (bits : List Bool) :
    (noteShifted bits s).pornLow = s.pornLow ∧ (noteShifted bits s).mgmtIgnore = s.mgmtIgnore ∧
      (noteShifted bits s).held = s.held ∧ (noteShifted bits s).regions = s.regions ∧
      (noteShifted bits s).triggers = s.triggers ∧ (noteShifted bits s).extents = s.extents ∧
      (noteShifted bits s).words = s.words ∧ (noteShifted bits s).argWord = s.argWord ∧
      (noteShifted bits s).rtq = s.rtq ∧ (noteShifted bits s).capture = s.capture ∧
      (noteShifted bits s).staging = s.staging ∧ (noteShifted bits s).framer = s.framer ∧
      (noteShifted bits s).window = s.window ∧ (noteShifted bits s).markers = s.markers ∧
      (noteShifted bits s).space = s.space ∧ (noteShifted bits s).link = s.link ∧
      (noteShifted bits s).buffer = s.buffer ∧ (noteShifted bits s).journal = s.journal ∧
      (noteShifted bits s).events = s.events ∧ (noteShifted bits s).counters = s.counters ∧
      (noteShifted bits s).ports.taken = s.ports.taken ∧ (noteShifted bits s).ports.downstream = s.ports.downstream ∧
      (noteShifted bits s).ports.upstream = s.ports.upstream ∧ (noteShifted bits s).ports.linkOut = s.ports.linkOut ∧
      (noteShifted bits s).pending = s.pending :=
  by unfold noteShifted; split <;> simp

@[simp] theorem finishWrite_keeps (s : State) (w : WriteTxn) :
    (finishWrite w s).pornLow = s.pornLow ∧ (finishWrite w s).mgmtIgnore = s.mgmtIgnore ∧
      (finishWrite w s).regions = s.regions ∧ (finishWrite w s).triggers = s.triggers ∧
      (finishWrite w s).extents = s.extents ∧ (finishWrite w s).words = s.words ∧ (finishWrite w s).argWord = s.argWord ∧
      (finishWrite w s).rtq.answerCount = s.rtq.answerCount ∧ (finishWrite w s).rtq.voids = s.rtq.voids ∧
      (finishWrite w s).capture = s.capture ∧ (finishWrite w s).staging = s.staging ∧ (finishWrite w s).framer = s.framer ∧
      (finishWrite w s).window = s.window ∧ (finishWrite w s).markers = s.markers ∧ (finishWrite w s).space = s.space ∧
      (finishWrite w s).link = s.link ∧ (finishWrite w s).buffer = s.buffer ∧ (finishWrite w s).journal = s.journal ∧
      (finishWrite w s).events = s.events ∧ (finishWrite w s).counters = s.counters ∧
      (finishWrite w s).ports.taken = s.ports.taken ∧ (finishWrite w s).ports.upstream = s.ports.upstream ∧
      (finishWrite w s).ports.linkOut = s.ports.linkOut ∧
      (finishWrite w s).ports.mgmtOut = s.ports.mgmtOut ∧ (finishWrite w s).pending = s.pending :=
  by simp [finishWrite]

@[simp] theorem holdWrite_keeps (s : State) (w : WriteTxn) (h : Hold) (limit : Nat) :
    (holdWrite w h limit s).pornLow = s.pornLow ∧ (holdWrite w h limit s).mgmtIgnore = s.mgmtIgnore ∧
      (holdWrite w h limit s).regions = s.regions ∧ (holdWrite w h limit s).triggers = s.triggers ∧
      (holdWrite w h limit s).extents = s.extents ∧ (holdWrite w h limit s).words = s.words ∧
      (holdWrite w h limit s).argWord = s.argWord ∧ (holdWrite w h limit s).rtq = s.rtq ∧
      (holdWrite w h limit s).capture = s.capture ∧ (holdWrite w h limit s).staging = s.staging ∧
      (holdWrite w h limit s).framer = s.framer ∧ (holdWrite w h limit s).window = s.window ∧
      (holdWrite w h limit s).markers = s.markers ∧ (holdWrite w h limit s).space = s.space ∧
      (holdWrite w h limit s).link = s.link ∧ (holdWrite w h limit s).buffer = s.buffer ∧
      (holdWrite w h limit s).journal = s.journal ∧ (holdWrite w h limit s).events = s.events ∧
      (holdWrite w h limit s).counters = s.counters ∧ (holdWrite w h limit s).ports = s.ports ∧
      (holdWrite w h limit s).pending = s.pending :=
  ⟨rfl, rfl, rfl, rfl, rfl, rfl, rfl, rfl, rfl, rfl, rfl, rfl, rfl, rfl, rfl, rfl, rfl, rfl, rfl, rfl, rfl⟩

@[simp] theorem enterMark_keeps (s : State) (tag : Half) (src : Source) (fenced final : Bool) :
    (enterMark tag src fenced final s).pornLow = s.pornLow ∧ (enterMark tag src fenced final s).mgmtIgnore = s.mgmtIgnore ∧
      (enterMark tag src fenced final s).held = s.held ∧ (enterMark tag src fenced final s).regions = s.regions ∧
      (enterMark tag src fenced final s).triggers = s.triggers ∧ (enterMark tag src fenced final s).extents = s.extents ∧
      (enterMark tag src fenced final s).words = s.words ∧ (enterMark tag src fenced final s).argWord = s.argWord ∧
      (enterMark tag src fenced final s).rtq = s.rtq ∧
      (enterMark tag src fenced final s).staging.finalMark = s.staging.finalMark ∧
      (enterMark tag src fenced final s).framer = s.framer ∧ (enterMark tag src fenced final s).window = s.window ∧
      (enterMark tag src fenced final s).markers.durableEpoch = s.markers.durableEpoch ∧
      (enterMark tag src fenced final s).markers.durableTag = s.markers.durableTag ∧
      (enterMark tag src fenced final s).markers.commitEpoch = s.markers.commitEpoch ∧
      (enterMark tag src fenced final s).space = s.space ∧ (enterMark tag src fenced final s).link = s.link ∧
      (enterMark tag src fenced final s).buffer = s.buffer ∧ (enterMark tag src fenced final s).journal = s.journal ∧
      (enterMark tag src fenced final s).events.enables = s.events.enables ∧
      (enterMark tag src fenced final s).events.lineEnables = s.events.lineEnables ∧
      (enterMark tag src fenced final s).counters = s.counters ∧ (enterMark tag src fenced final s).ports = s.ports ∧
      (enterMark tag src fenced final s).pending = s.pending :=
  by simp [enterMark]

@[simp] theorem loseMark_keeps (s : State) :
    (loseMark s).pornLow = s.pornLow ∧ (loseMark s).mgmtIgnore = s.mgmtIgnore ∧ (loseMark s).held = s.held ∧
      (loseMark s).regions = s.regions ∧ (loseMark s).triggers = s.triggers ∧ (loseMark s).extents = s.extents ∧
      (loseMark s).words = s.words ∧ (loseMark s).argWord = s.argWord ∧ (loseMark s).rtq = s.rtq ∧
      (loseMark s).capture = s.capture ∧ (loseMark s).staging = s.staging ∧ (loseMark s).framer = s.framer ∧
      (loseMark s).window = s.window ∧ (loseMark s).markers = s.markers ∧ (loseMark s).space = s.space ∧
      (loseMark s).link = s.link ∧ (loseMark s).buffer = s.buffer ∧ (loseMark s).journal = s.journal ∧
      (loseMark s).events.enables = s.events.enables ∧ (loseMark s).events.lineEnables = s.events.lineEnables ∧
      (loseMark s).ports = s.ports ∧ (loseMark s).pending = s.pending :=
  by simp [loseMark]

@[simp] theorem takeEntry_keeps (s : State) (w : WriteTxn) (seq : Word) (ended : Bool) :
    (takeEntry w seq ended s).pornLow = s.pornLow ∧ (takeEntry w seq ended s).mgmtIgnore = s.mgmtIgnore ∧
      (takeEntry w seq ended s).held = s.held ∧ (takeEntry w seq ended s).regions = s.regions ∧
      (takeEntry w seq ended s).triggers = s.triggers ∧ (takeEntry w seq ended s).extents = s.extents ∧
      (takeEntry w seq ended s).words = s.words ∧ (takeEntry w seq ended s).argWord = s.argWord ∧
      (takeEntry w seq ended s).rtq.forwardCount = s.rtq.forwardCount ∧
      (takeEntry w seq ended s).rtq.answerCount = s.rtq.answerCount ∧ (takeEntry w seq ended s).rtq.voids = s.rtq.voids ∧
      (takeEntry w seq ended s).capture = s.capture ∧ (takeEntry w seq ended s).staging = s.staging ∧
      (takeEntry w seq ended s).framer = s.framer ∧ (takeEntry w seq ended s).window = s.window ∧
      (takeEntry w seq ended s).markers = s.markers ∧ (takeEntry w seq ended s).space = s.space ∧
      (takeEntry w seq ended s).link = s.link ∧ (takeEntry w seq ended s).buffer = s.buffer ∧
      (takeEntry w seq ended s).journal = s.journal ∧ (takeEntry w seq ended s).events = s.events ∧
      (takeEntry w seq ended s).counters = s.counters ∧ (takeEntry w seq ended s).ports = s.ports ∧
      (takeEntry w seq ended s).pending = s.pending :=
  ⟨rfl, rfl, rfl, rfl, rfl, rfl, rfl, rfl, rfl, rfl, rfl, rfl, rfl, rfl, rfl, rfl, rfl, rfl, rfl, rfl, rfl, rfl, rfl, rfl⟩

@[simp] theorem lateVoid_keeps (s : State) :
    (lateVoid s).pornLow = s.pornLow ∧ (lateVoid s).mgmtIgnore = s.mgmtIgnore ∧ (lateVoid s).held = s.held ∧
      (lateVoid s).regions = s.regions ∧ (lateVoid s).triggers = s.triggers ∧ (lateVoid s).extents = s.extents ∧
      (lateVoid s).words = s.words ∧ (lateVoid s).argWord = s.argWord ∧ (lateVoid s).rtq = s.rtq ∧
      (lateVoid s).capture = s.capture ∧ (lateVoid s).staging = s.staging ∧ (lateVoid s).framer = s.framer ∧
      (lateVoid s).window = s.window ∧ (lateVoid s).markers = s.markers ∧ (lateVoid s).space = s.space ∧
      (lateVoid s).link = s.link ∧ (lateVoid s).buffer = s.buffer ∧ (lateVoid s).journal = s.journal ∧
      (lateVoid s).events.enables = s.events.enables ∧ (lateVoid s).events.lineEnables = s.events.lineEnables ∧
      (lateVoid s).ports = s.ports ∧ (lateVoid s).pending = s.pending :=
  by simp [lateVoid]

@[simp] theorem returnWriteResponse_keeps (s : State) (id : Byte) (answer : WriteAnswer) :
    (returnWriteResponse id answer s).pornLow = s.pornLow ∧ (returnWriteResponse id answer s).mgmtIgnore = s.mgmtIgnore ∧
      (returnWriteResponse id answer s).held = s.held ∧ (returnWriteResponse id answer s).regions = s.regions ∧
      (returnWriteResponse id answer s).triggers = s.triggers ∧ (returnWriteResponse id answer s).extents = s.extents ∧
      (returnWriteResponse id answer s).words = s.words ∧ (returnWriteResponse id answer s).argWord = s.argWord ∧
      (returnWriteResponse id answer s).rtq.forwardCount = s.rtq.forwardCount ∧
      (returnWriteResponse id answer s).rtq.tracking = s.rtq.tracking ∧
      (returnWriteResponse id answer s).rtq.voids = s.rtq.voids ∧ (returnWriteResponse id answer s).capture = s.capture ∧
      (returnWriteResponse id answer s).staging = s.staging ∧ (returnWriteResponse id answer s).framer = s.framer ∧
      (returnWriteResponse id answer s).window = s.window ∧ (returnWriteResponse id answer s).markers = s.markers ∧
      (returnWriteResponse id answer s).space = s.space ∧ (returnWriteResponse id answer s).link = s.link ∧
      (returnWriteResponse id answer s).buffer = s.buffer ∧ (returnWriteResponse id answer s).journal = s.journal ∧
      (returnWriteResponse id answer s).events = s.events ∧ (returnWriteResponse id answer s).counters = s.counters ∧
      (returnWriteResponse id answer s).ports.taken = s.ports.taken ∧
      (returnWriteResponse id answer s).ports.downstream = s.ports.downstream ∧
      (returnWriteResponse id answer s).ports.linkOut = s.ports.linkOut ∧
      (returnWriteResponse id answer s).ports.mgmtOut = s.ports.mgmtOut ∧ (returnWriteResponse id answer s).pending = s.pending :=
  ⟨rfl, rfl, rfl, rfl, rfl, rfl, rfl, rfl, rfl, rfl, rfl, rfl, rfl, rfl, rfl, rfl, rfl, rfl, rfl, rfl, rfl, rfl, rfl, rfl, rfl, rfl, rfl⟩

@[simp] theorem endTracking_keeps (s : State) :
    (endTracking s).pornLow = s.pornLow ∧ (endTracking s).mgmtIgnore = s.mgmtIgnore ∧ (endTracking s).held = s.held ∧
      (endTracking s).regions = s.regions ∧ (endTracking s).triggers = s.triggers ∧ (endTracking s).extents = s.extents ∧
      (endTracking s).words = s.words ∧ (endTracking s).argWord = s.argWord ∧
      (endTracking s).rtq.forwardCount = s.rtq.forwardCount ∧ (endTracking s).rtq.answerCount = s.rtq.answerCount ∧
      (endTracking s).rtq.voids = s.rtq.voids ∧ (endTracking s).capture = s.capture ∧ (endTracking s).staging = s.staging ∧
      (endTracking s).framer = s.framer ∧ (endTracking s).window = s.window ∧ (endTracking s).markers = s.markers ∧
      (endTracking s).space = s.space ∧ (endTracking s).link = s.link ∧ (endTracking s).buffer = s.buffer ∧
      (endTracking s).journal = s.journal ∧ (endTracking s).events = s.events ∧ (endTracking s).counters = s.counters ∧
      (endTracking s).ports = s.ports ∧ (endTracking s).pending = s.pending :=
  ⟨rfl, rfl, rfl, rfl, rfl, rfl, rfl, rfl, rfl, rfl, rfl, rfl, rfl, rfl, rfl, rfl, rfl, rfl, rfl, rfl, rfl, rfl, rfl, rfl⟩

@[simp] theorem setSlot_keeps (s : State) (i : Fin 8) (x : Slot) :
    (setSlot i x s).pornLow = s.pornLow ∧ (setSlot i x s).mgmtIgnore = s.mgmtIgnore ∧ (setSlot i x s).held = s.held ∧
      (setSlot i x s).regions = s.regions ∧ (setSlot i x s).triggers = s.triggers ∧ (setSlot i x s).extents = s.extents ∧
      (setSlot i x s).words = s.words ∧ (setSlot i x s).argWord = s.argWord ∧ (setSlot i x s).rtq = s.rtq ∧
      (setSlot i x s).capture = s.capture ∧ (setSlot i x s).staging = s.staging ∧ (setSlot i x s).framer = s.framer ∧
      (setSlot i x s).markers = s.markers ∧ (setSlot i x s).space = s.space ∧ (setSlot i x s).link = s.link ∧
      (setSlot i x s).buffer = s.buffer ∧ (setSlot i x s).journal = s.journal ∧ (setSlot i x s).events = s.events ∧
      (setSlot i x s).counters = s.counters ∧ (setSlot i x s).ports = s.ports ∧ (setSlot i x s).pending = s.pending :=
  ⟨rfl, rfl, rfl, rfl, rfl, rfl, rfl, rfl, rfl, rfl, rfl, rfl, rfl, rfl, rfl, rfl, rfl, rfl, rfl, rfl, rfl⟩

@[simp] theorem returnInFlight_keeps (s : State) :
    (returnInFlight s).pornLow = s.pornLow ∧ (returnInFlight s).mgmtIgnore = s.mgmtIgnore ∧
      (returnInFlight s).held = s.held ∧ (returnInFlight s).regions = s.regions ∧
      (returnInFlight s).triggers = s.triggers ∧ (returnInFlight s).extents = s.extents ∧
      (returnInFlight s).words = s.words ∧ (returnInFlight s).argWord = s.argWord ∧ (returnInFlight s).rtq = s.rtq ∧
      (returnInFlight s).capture = s.capture ∧ (returnInFlight s).staging = s.staging ∧
      (returnInFlight s).framer = s.framer ∧ (returnInFlight s).markers = s.markers ∧ (returnInFlight s).space = s.space ∧
      (returnInFlight s).link = s.link ∧ (returnInFlight s).buffer = s.buffer ∧ (returnInFlight s).journal = s.journal ∧
      (returnInFlight s).events = s.events ∧ (returnInFlight s).counters = s.counters ∧
      (returnInFlight s).ports = s.ports ∧ (returnInFlight s).pending = s.pending :=
  ⟨rfl, rfl, rfl, rfl, rfl, rfl, rfl, rfl, rfl, rfl, rfl, rfl, rfl, rfl, rfl, rfl, rfl, rfl, rfl, rfl, rfl⟩

@[simp] theorem openBlock_keeps (s : State) (i : Fin 8) :
    (openBlock i s).pornLow = s.pornLow ∧ (openBlock i s).mgmtIgnore = s.mgmtIgnore ∧ (openBlock i s).held = s.held ∧
      (openBlock i s).regions = s.regions ∧ (openBlock i s).triggers = s.triggers ∧ (openBlock i s).extents = s.extents ∧
      (openBlock i s).words = s.words ∧ (openBlock i s).argWord = s.argWord ∧ (openBlock i s).rtq = s.rtq ∧
      (openBlock i s).capture = s.capture ∧ (openBlock i s).staging = s.staging ∧
      (openBlock i s).framer.generation = s.framer.generation ∧ (openBlock i s).framer.blockSize = s.framer.blockSize ∧
      (openBlock i s).framer.framingEpoch = s.framer.framingEpoch ∧ (openBlock i s).framer.due = s.framer.due ∧
      (openBlock i s).markers = s.markers ∧ (openBlock i s).space = s.space ∧ (openBlock i s).link = s.link ∧
      (openBlock i s).buffer = s.buffer ∧ (openBlock i s).journal = s.journal ∧ (openBlock i s).events = s.events ∧
      (openBlock i s).counters = s.counters ∧ (openBlock i s).ports = s.ports ∧ (openBlock i s).pending = s.pending :=
  by simp [openBlock]

@[simp] theorem sealBlock_keeps (s : State) (i : Fin 8) (d : Draft) (cause : SealCause) :
    (sealBlock i d cause s).pornLow = s.pornLow ∧ (sealBlock i d cause s).mgmtIgnore = s.mgmtIgnore ∧
      (sealBlock i d cause s).held = s.held ∧ (sealBlock i d cause s).regions = s.regions ∧
      (sealBlock i d cause s).triggers = s.triggers ∧ (sealBlock i d cause s).extents = s.extents ∧
      (sealBlock i d cause s).words = s.words ∧ (sealBlock i d cause s).argWord = s.argWord ∧
      (sealBlock i d cause s).rtq = s.rtq ∧ (sealBlock i d cause s).capture = s.capture ∧
      (sealBlock i d cause s).staging = s.staging ∧ (sealBlock i d cause s).framer.generation = s.framer.generation ∧
      (sealBlock i d cause s).framer.blockSize = s.framer.blockSize ∧
      (sealBlock i d cause s).framer.serialCounter = s.framer.serialCounter ∧
      (sealBlock i d cause s).framer.framingEpoch = s.framer.framingEpoch ∧ (sealBlock i d cause s).markers = s.markers ∧
      (sealBlock i d cause s).space = s.space ∧ (sealBlock i d cause s).link = s.link ∧
      (sealBlock i d cause s).buffer = s.buffer ∧ (sealBlock i d cause s).journal = s.journal ∧
      (sealBlock i d cause s).events = s.events ∧ (sealBlock i d cause s).ports = s.ports ∧
      (sealBlock i d cause s).pending = s.pending :=
  by simp [sealBlock]

@[simp] theorem placeMark_keeps (s : State) (recSeq serial : Word) :
    (placeMark recSeq serial s).pornLow = s.pornLow ∧ (placeMark recSeq serial s).mgmtIgnore = s.mgmtIgnore ∧
      (placeMark recSeq serial s).held = s.held ∧ (placeMark recSeq serial s).regions = s.regions ∧
      (placeMark recSeq serial s).triggers = s.triggers ∧ (placeMark recSeq serial s).extents = s.extents ∧
      (placeMark recSeq serial s).words = s.words ∧ (placeMark recSeq serial s).argWord = s.argWord ∧
      (placeMark recSeq serial s).rtq = s.rtq ∧ (placeMark recSeq serial s).capture = s.capture ∧
      (placeMark recSeq serial s).staging = s.staging ∧
      (placeMark recSeq serial s).framer.generation = s.framer.generation ∧
      (placeMark recSeq serial s).framer.blockSize = s.framer.blockSize ∧
      (placeMark recSeq serial s).framer.serialCounter = s.framer.serialCounter ∧
      (placeMark recSeq serial s).framer.sealTimer = s.framer.sealTimer ∧
      (placeMark recSeq serial s).framer.due = s.framer.due ∧ (placeMark recSeq serial s).window = s.window ∧
      (placeMark recSeq serial s).markers.durableEpoch = s.markers.durableEpoch ∧
      (placeMark recSeq serial s).markers.durableTag = s.markers.durableTag ∧
      (placeMark recSeq serial s).markers.commitEpoch = s.markers.commitEpoch ∧
      (placeMark recSeq serial s).space = s.space ∧ (placeMark recSeq serial s).link = s.link ∧
      (placeMark recSeq serial s).buffer = s.buffer ∧ (placeMark recSeq serial s).journal = s.journal ∧
      (placeMark recSeq serial s).events = s.events ∧ (placeMark recSeq serial s).counters = s.counters ∧
      (placeMark recSeq serial s).ports = s.ports ∧ (placeMark recSeq serial s).pending = s.pending :=
  ⟨rfl, rfl, rfl, rfl, rfl, rfl, rfl, rfl, rfl, rfl, rfl, rfl, rfl, rfl, rfl, rfl, rfl, rfl, rfl, rfl, rfl, rfl, rfl, rfl, rfl, rfl, rfl, rfl⟩

@[simp] theorem compareLow_keeps (s : State) :
    (compareLow s).pornLow = s.pornLow ∧ (compareLow s).mgmtIgnore = s.mgmtIgnore ∧ (compareLow s).held = s.held ∧
      (compareLow s).regions = s.regions ∧ (compareLow s).triggers = s.triggers ∧ (compareLow s).extents = s.extents ∧
      (compareLow s).words = s.words ∧ (compareLow s).argWord = s.argWord ∧ (compareLow s).rtq = s.rtq ∧
      (compareLow s).capture = s.capture ∧ (compareLow s).staging = s.staging ∧ (compareLow s).framer = s.framer ∧
      (compareLow s).window = s.window ∧ (compareLow s).markers = s.markers ∧ (compareLow s).space.chain = s.space.chain ∧
      (compareLow s).space.head = s.space.head ∧ (compareLow s).space.boundary = s.space.boundary ∧
      (compareLow s).space.tail = s.space.tail ∧ (compareLow s).space.origin = s.space.origin ∧
      (compareLow s).space.used = s.space.used ∧ (compareLow s).space.durableUsed = s.space.durableUsed ∧
      (compareLow s).space.recordedHead = s.space.recordedHead ∧ (compareLow s).link = s.link ∧
      (compareLow s).buffer = s.buffer ∧ (compareLow s).journal = s.journal ∧
      (compareLow s).events.enables = s.events.enables ∧ (compareLow s).events.lineEnables = s.events.lineEnables ∧
      (compareLow s).counters = s.counters ∧ (compareLow s).ports = s.ports ∧ (compareLow s).pending = s.pending :=
  ⟨rfl, rfl, rfl, rfl, rfl, rfl, rfl, rfl, rfl, rfl, rfl, rfl, rfl, rfl, rfl, rfl, rfl, rfl, rfl, rfl, rfl, rfl, rfl, rfl, rfl, rfl, rfl, rfl, rfl, rfl⟩

@[simp] theorem advanceHead_keeps (s : State) :
    (advanceHead s).pornLow = s.pornLow ∧ (advanceHead s).mgmtIgnore = s.mgmtIgnore ∧ (advanceHead s).held = s.held ∧
      (advanceHead s).regions = s.regions ∧ (advanceHead s).triggers = s.triggers ∧ (advanceHead s).extents = s.extents ∧
      (advanceHead s).words = s.words ∧ (advanceHead s).argWord = s.argWord ∧ (advanceHead s).rtq = s.rtq ∧
      (advanceHead s).capture = s.capture ∧ (advanceHead s).staging = s.staging ∧ (advanceHead s).framer = s.framer ∧
      (advanceHead s).window = s.window ∧ (advanceHead s).markers = s.markers ∧
      (advanceHead s).space.chain = s.space.chain ∧ (advanceHead s).space.boundary = s.space.boundary ∧
      (advanceHead s).space.tail = s.space.tail ∧ (advanceHead s).space.origin = s.space.origin ∧
      (advanceHead s).space.durableUsed = s.space.durableUsed ∧ (advanceHead s).space.recordedHead = s.space.recordedHead ∧
      (advanceHead s).link = s.link ∧ (advanceHead s).buffer = s.buffer ∧ (advanceHead s).journal = s.journal ∧
      (advanceHead s).events.enables = s.events.enables ∧ (advanceHead s).events.lineEnables = s.events.lineEnables ∧
      (advanceHead s).ports = s.ports ∧ (advanceHead s).pending = s.pending :=
  by simp [advanceHead]

@[simp] theorem moveBoundary_keeps (s : State) :
    (moveBoundary s).pornLow = s.pornLow ∧ (moveBoundary s).mgmtIgnore = s.mgmtIgnore ∧ (moveBoundary s).held = s.held ∧
      (moveBoundary s).regions = s.regions ∧ (moveBoundary s).triggers = s.triggers ∧
      (moveBoundary s).extents = s.extents ∧ (moveBoundary s).words = s.words ∧ (moveBoundary s).argWord = s.argWord ∧
      (moveBoundary s).rtq = s.rtq ∧ (moveBoundary s).capture = s.capture ∧ (moveBoundary s).staging = s.staging ∧
      (moveBoundary s).framer = s.framer ∧ (moveBoundary s).window = s.window ∧ (moveBoundary s).markers = s.markers ∧
      (moveBoundary s).space.chain = s.space.chain ∧ (moveBoundary s).space.head = s.space.head ∧
      (moveBoundary s).space.tail = s.space.tail ∧ (moveBoundary s).space.origin = s.space.origin ∧
      (moveBoundary s).space.used = s.space.used ∧ (moveBoundary s).space.lowArmed = s.space.lowArmed ∧
      (moveBoundary s).link = s.link ∧ (moveBoundary s).buffer = s.buffer ∧ (moveBoundary s).journal = s.journal ∧
      (moveBoundary s).events = s.events ∧ (moveBoundary s).counters = s.counters ∧ (moveBoundary s).ports = s.ports ∧
      (moveBoundary s).pending = s.pending :=
  ⟨rfl, rfl, rfl, rfl, rfl, rfl, rfl, rfl, rfl, rfl, rfl, rfl, rfl, rfl, rfl, rfl, rfl, rfl, rfl, rfl, rfl, rfl, rfl, rfl, rfl, rfl, rfl⟩

@[simp] theorem reclaimBlocks_keeps (s : State) (n : Nat) :
    (reclaimBlocks n s).pornLow = s.pornLow ∧ (reclaimBlocks n s).mgmtIgnore = s.mgmtIgnore ∧
      (reclaimBlocks n s).held = s.held ∧ (reclaimBlocks n s).regions = s.regions ∧
      (reclaimBlocks n s).triggers = s.triggers ∧ (reclaimBlocks n s).extents = s.extents ∧
      (reclaimBlocks n s).words = s.words ∧ (reclaimBlocks n s).argWord = s.argWord ∧ (reclaimBlocks n s).rtq = s.rtq ∧
      (reclaimBlocks n s).capture = s.capture ∧ (reclaimBlocks n s).staging = s.staging ∧
      (reclaimBlocks n s).framer = s.framer ∧ (reclaimBlocks n s).window = s.window ∧
      (reclaimBlocks n s).markers = s.markers ∧ (reclaimBlocks n s).space.chain = s.space.chain ∧
      (reclaimBlocks n s).space.head = s.space.head ∧ (reclaimBlocks n s).space.boundary = s.space.boundary ∧
      (reclaimBlocks n s).space.origin = s.space.origin ∧ (reclaimBlocks n s).space.recordedHead = s.space.recordedHead ∧
      (reclaimBlocks n s).link = s.link ∧ (reclaimBlocks n s).buffer = s.buffer ∧ (reclaimBlocks n s).journal = s.journal ∧
      (reclaimBlocks n s).events.enables = s.events.enables ∧
      (reclaimBlocks n s).events.lineEnables = s.events.lineEnables ∧ (reclaimBlocks n s).counters = s.counters ∧
      (reclaimBlocks n s).ports = s.ports ∧ (reclaimBlocks n s).pending = s.pending :=
  by simp [reclaimBlocks]

@[simp] theorem nextNumber_keeps (s : State) :
    (nextNumber s).pornLow = s.pornLow ∧ (nextNumber s).mgmtIgnore = s.mgmtIgnore ∧ (nextNumber s).held = s.held ∧
      (nextNumber s).regions = s.regions ∧ (nextNumber s).triggers = s.triggers ∧ (nextNumber s).extents = s.extents ∧
      (nextNumber s).words = s.words ∧ (nextNumber s).argWord = s.argWord ∧ (nextNumber s).rtq = s.rtq ∧
      (nextNumber s).capture = s.capture ∧ (nextNumber s).staging = s.staging ∧ (nextNumber s).framer = s.framer ∧
      (nextNumber s).window = s.window ∧ (nextNumber s).markers = s.markers ∧ (nextNumber s).space = s.space ∧
      (nextNumber s).link = s.link ∧ (nextNumber s).buffer = s.buffer ∧ (nextNumber s).journal.state = s.journal.state ∧
      (nextNumber s).journal.resume = s.journal.resume ∧ (nextNumber s).journal.generation = s.journal.generation ∧
      (nextNumber s).journal.slot = s.journal.slot ∧ (nextNumber s).journal.side = s.journal.side ∧
      (nextNumber s).journal.overtaken = s.journal.overtaken ∧ (nextNumber s).events = s.events ∧
      (nextNumber s).counters = s.counters ∧ (nextNumber s).ports = s.ports ∧ (nextNumber s).pending = s.pending :=
  ⟨rfl, rfl, rfl, rfl, rfl, rfl, rfl, rfl, rfl, rfl, rfl, rfl, rfl, rfl, rfl, rfl, rfl, rfl, rfl, rfl, rfl, rfl, rfl, rfl, rfl, rfl, rfl⟩

@[simp] theorem runCommand_keeps (s : State) (code : BitVec 4) :
    (runCommand code s).pornLow = s.pornLow ∧ (runCommand code s).mgmtIgnore = s.mgmtIgnore ∧
      (runCommand code s).held = s.held ∧ (runCommand code s).regions = s.regions ∧
      (runCommand code s).triggers = s.triggers ∧ (runCommand code s).extents = s.extents ∧
      (runCommand code s).words = s.words ∧ (runCommand code s).argWord = s.argWord ∧ (runCommand code s).rtq = s.rtq ∧
      (runCommand code s).capture = s.capture ∧ (runCommand code s).staging = s.staging ∧
      (runCommand code s).framer = s.framer ∧ (runCommand code s).window = s.window ∧
      (runCommand code s).markers = s.markers ∧ (runCommand code s).space = s.space ∧ (runCommand code s).link = s.link ∧
      (runCommand code s).buffer = s.buffer ∧ (runCommand code s).journal.state = s.journal.state ∧
      (runCommand code s).journal.resume = s.journal.resume ∧
      (runCommand code s).journal.generation = s.journal.generation ∧
      (runCommand code s).journal.number = s.journal.number ∧ (runCommand code s).journal.side = s.journal.side ∧
      (runCommand code s).journal.overtaken = s.journal.overtaken ∧ (runCommand code s).events = s.events ∧
      (runCommand code s).counters = s.counters ∧ (runCommand code s).ports = s.ports ∧
      (runCommand code s).pending = s.pending :=
  ⟨rfl, rfl, rfl, rfl, rfl, rfl, rfl, rfl, rfl, rfl, rfl, rfl, rfl, rfl, rfl, rfl, rfl, rfl, rfl, rfl, rfl, rfl, rfl, rfl, rfl, rfl, rfl⟩

@[simp] theorem answerCommand_keeps (s : State) (code : BitVec 4) (status : CmdStatus) (reason : Option Reason) (r0 r1 : Word) :
    (answerCommand code status reason r0 r1 s).pornLow = s.pornLow ∧
      (answerCommand code status reason r0 r1 s).mgmtIgnore = s.mgmtIgnore ∧
      (answerCommand code status reason r0 r1 s).held = s.held ∧
      (answerCommand code status reason r0 r1 s).regions = s.regions ∧
      (answerCommand code status reason r0 r1 s).triggers = s.triggers ∧
      (answerCommand code status reason r0 r1 s).extents = s.extents ∧
      (answerCommand code status reason r0 r1 s).words = s.words ∧
      (answerCommand code status reason r0 r1 s).argWord = s.argWord ∧
      (answerCommand code status reason r0 r1 s).rtq = s.rtq ∧
      (answerCommand code status reason r0 r1 s).capture = s.capture ∧
      (answerCommand code status reason r0 r1 s).staging = s.staging ∧
      (answerCommand code status reason r0 r1 s).framer = s.framer ∧
      (answerCommand code status reason r0 r1 s).window = s.window ∧
      (answerCommand code status reason r0 r1 s).markers = s.markers ∧
      (answerCommand code status reason r0 r1 s).space = s.space ∧
      (answerCommand code status reason r0 r1 s).link = s.link ∧
      (answerCommand code status reason r0 r1 s).buffer = s.buffer ∧
      (answerCommand code status reason r0 r1 s).journal.state = s.journal.state ∧
      (answerCommand code status reason r0 r1 s).journal.resume = s.journal.resume ∧
      (answerCommand code status reason r0 r1 s).journal.generation = s.journal.generation ∧
      (answerCommand code status reason r0 r1 s).journal.number = s.journal.number ∧
      (answerCommand code status reason r0 r1 s).journal.overtaken = s.journal.overtaken ∧
      (answerCommand code status reason r0 r1 s).events.enables = s.events.enables ∧
      (answerCommand code status reason r0 r1 s).events.lineEnables = s.events.lineEnables ∧
      (answerCommand code status reason r0 r1 s).counters = s.counters ∧
      (answerCommand code status reason r0 r1 s).ports = s.ports ∧
      (answerCommand code status reason r0 r1 s).pending = s.pending :=
  ⟨rfl, rfl, rfl, rfl, rfl, rfl, rfl, rfl, rfl, rfl, rfl, rfl, rfl, rfl, rfl, rfl, rfl, rfl, rfl, rfl, rfl, rfl, rfl, rfl, rfl, rfl, rfl⟩

@[simp] theorem refuse_keeps (s : State) (code : BitVec 4) (reason : Reason) :
    (refuse code reason s).pornLow = s.pornLow ∧ (refuse code reason s).mgmtIgnore = s.mgmtIgnore ∧
      (refuse code reason s).held = s.held ∧ (refuse code reason s).regions = s.regions ∧
      (refuse code reason s).triggers = s.triggers ∧ (refuse code reason s).extents = s.extents ∧
      (refuse code reason s).words = s.words ∧ (refuse code reason s).argWord = s.argWord ∧
      (refuse code reason s).rtq = s.rtq ∧ (refuse code reason s).capture = s.capture ∧
      (refuse code reason s).staging = s.staging ∧ (refuse code reason s).framer = s.framer ∧
      (refuse code reason s).window = s.window ∧ (refuse code reason s).markers = s.markers ∧
      (refuse code reason s).space = s.space ∧ (refuse code reason s).link = s.link ∧
      (refuse code reason s).buffer = s.buffer ∧ (refuse code reason s).journal.state = s.journal.state ∧
      (refuse code reason s).journal.resume = s.journal.resume ∧
      (refuse code reason s).journal.generation = s.journal.generation ∧
      (refuse code reason s).journal.number = s.journal.number ∧
      (refuse code reason s).journal.overtaken = s.journal.overtaken ∧
      (refuse code reason s).events.enables = s.events.enables ∧
      (refuse code reason s).events.lineEnables = s.events.lineEnables ∧ (refuse code reason s).counters = s.counters ∧
      (refuse code reason s).ports = s.ports ∧ (refuse code reason s).pending = s.pending :=
  by simp [refuse]

@[simp] theorem complete_keeps (s : State) (code : BitVec 4) (r0 r1 : Word) :
    (complete code r0 r1 s).pornLow = s.pornLow ∧ (complete code r0 r1 s).mgmtIgnore = s.mgmtIgnore ∧
      (complete code r0 r1 s).held = s.held ∧ (complete code r0 r1 s).regions = s.regions ∧
      (complete code r0 r1 s).triggers = s.triggers ∧ (complete code r0 r1 s).extents = s.extents ∧
      (complete code r0 r1 s).words = s.words ∧ (complete code r0 r1 s).argWord = s.argWord ∧
      (complete code r0 r1 s).rtq = s.rtq ∧ (complete code r0 r1 s).capture = s.capture ∧
      (complete code r0 r1 s).staging = s.staging ∧ (complete code r0 r1 s).framer = s.framer ∧
      (complete code r0 r1 s).window = s.window ∧ (complete code r0 r1 s).markers = s.markers ∧
      (complete code r0 r1 s).space = s.space ∧ (complete code r0 r1 s).link = s.link ∧
      (complete code r0 r1 s).buffer = s.buffer ∧ (complete code r0 r1 s).journal.state = s.journal.state ∧
      (complete code r0 r1 s).journal.resume = s.journal.resume ∧
      (complete code r0 r1 s).journal.generation = s.journal.generation ∧
      (complete code r0 r1 s).journal.number = s.journal.number ∧
      (complete code r0 r1 s).journal.overtaken = s.journal.overtaken ∧
      (complete code r0 r1 s).events.enables = s.events.enables ∧
      (complete code r0 r1 s).events.lineEnables = s.events.lineEnables ∧ (complete code r0 r1 s).counters = s.counters ∧
      (complete code r0 r1 s).ports = s.ports ∧ (complete code r0 r1 s).pending = s.pending :=
  by simp [complete]

@[simp] theorem endRunning_keeps (s : State) (status : CmdStatus) (reason : Option Reason) (r0 r1 : Word) :
    (endRunning status reason r0 r1 s).pornLow = s.pornLow ∧ (endRunning status reason r0 r1 s).mgmtIgnore = s.mgmtIgnore ∧
      (endRunning status reason r0 r1 s).held = s.held ∧ (endRunning status reason r0 r1 s).regions = s.regions ∧
      (endRunning status reason r0 r1 s).triggers = s.triggers ∧ (endRunning status reason r0 r1 s).extents = s.extents ∧
      (endRunning status reason r0 r1 s).words = s.words ∧ (endRunning status reason r0 r1 s).argWord = s.argWord ∧
      (endRunning status reason r0 r1 s).rtq = s.rtq ∧ (endRunning status reason r0 r1 s).capture = s.capture ∧
      (endRunning status reason r0 r1 s).staging = s.staging ∧ (endRunning status reason r0 r1 s).framer = s.framer ∧
      (endRunning status reason r0 r1 s).window = s.window ∧ (endRunning status reason r0 r1 s).markers = s.markers ∧
      (endRunning status reason r0 r1 s).space = s.space ∧ (endRunning status reason r0 r1 s).link = s.link ∧
      (endRunning status reason r0 r1 s).buffer = s.buffer ∧
      (endRunning status reason r0 r1 s).journal.state = s.journal.state ∧
      (endRunning status reason r0 r1 s).journal.resume = s.journal.resume ∧
      (endRunning status reason r0 r1 s).journal.generation = s.journal.generation ∧
      (endRunning status reason r0 r1 s).journal.number = s.journal.number ∧
      (endRunning status reason r0 r1 s).journal.side = s.journal.side ∧
      (endRunning status reason r0 r1 s).journal.overtaken = s.journal.overtaken ∧
      (endRunning status reason r0 r1 s).events.enables = s.events.enables ∧
      (endRunning status reason r0 r1 s).events.lineEnables = s.events.lineEnables ∧
      (endRunning status reason r0 r1 s).counters = s.counters ∧ (endRunning status reason r0 r1 s).ports = s.ports ∧
      (endRunning status reason r0 r1 s).pending = s.pending :=
  ⟨rfl, rfl, rfl, rfl, rfl, rfl, rfl, rfl, rfl, rfl, rfl, rfl, rfl, rfl, rfl, rfl, rfl, rfl, rfl, rfl, rfl, rfl, rfl, rfl, rfl, rfl, rfl, rfl⟩

@[simp] theorem overtake_keeps (s : State) :
    (overtake s).pornLow = s.pornLow ∧ (overtake s).mgmtIgnore = s.mgmtIgnore ∧ (overtake s).held = s.held ∧
      (overtake s).regions = s.regions ∧ (overtake s).triggers = s.triggers ∧ (overtake s).extents = s.extents ∧
      (overtake s).words = s.words ∧ (overtake s).argWord = s.argWord ∧ (overtake s).rtq = s.rtq ∧
      (overtake s).capture = s.capture ∧ (overtake s).staging = s.staging ∧ (overtake s).framer = s.framer ∧
      (overtake s).window = s.window ∧ (overtake s).markers = s.markers ∧ (overtake s).space = s.space ∧
      (overtake s).link = s.link ∧ (overtake s).buffer = s.buffer ∧ (overtake s).journal.state = s.journal.state ∧
      (overtake s).journal.resume = s.journal.resume ∧ (overtake s).journal.generation = s.journal.generation ∧
      (overtake s).journal.number = s.journal.number ∧ (overtake s).journal.slot = s.journal.slot ∧
      (overtake s).journal.side = s.journal.side ∧ (overtake s).events = s.events ∧ (overtake s).counters = s.counters ∧
      (overtake s).ports = s.ports ∧ (overtake s).pending = s.pending :=
  ⟨rfl, rfl, rfl, rfl, rfl, rfl, rfl, rfl, rfl, rfl, rfl, rfl, rfl, rfl, rfl, rfl, rfl, rfl, rfl, rfl, rfl, rfl, rfl, rfl, rfl, rfl, rfl⟩

@[simp] theorem sendFrame_keeps (s : State) (c : LinkCmd) :
    (sendFrame c s).pornLow = s.pornLow ∧ (sendFrame c s).mgmtIgnore = s.mgmtIgnore ∧ (sendFrame c s).held = s.held ∧
      (sendFrame c s).regions = s.regions ∧ (sendFrame c s).triggers = s.triggers ∧ (sendFrame c s).extents = s.extents ∧
      (sendFrame c s).words = s.words ∧ (sendFrame c s).argWord = s.argWord ∧ (sendFrame c s).rtq = s.rtq ∧
      (sendFrame c s).capture = s.capture ∧ (sendFrame c s).staging = s.staging ∧ (sendFrame c s).framer = s.framer ∧
      (sendFrame c s).window = s.window ∧ (sendFrame c s).markers = s.markers ∧ (sendFrame c s).space = s.space ∧
      (sendFrame c s).link.state = s.link.state ∧ (sendFrame c s).link.clockOn = s.link.clockOn ∧
      (sendFrame c s).link.divisor = s.link.divisor ∧ (sendFrame c s).link.width = s.link.width ∧
      (sendFrame c s).link.lastStatus = s.link.lastStatus ∧ (sendFrame c s).link.storeId = s.link.storeId ∧
      (sendFrame c s).link.genStoreId = s.link.genStoreId ∧ (sendFrame c s).link.run = s.link.run ∧
      (sendFrame c s).link.attempts = s.link.attempts ∧ (sendFrame c s).link.sendCount = s.link.sendCount ∧
      (sendFrame c s).link.idle = s.link.idle ∧ (sendFrame c s).link.pauseReq = s.link.pauseReq ∧
      (sendFrame c s).link.recovery = s.link.recovery ∧ (sendFrame c s).link.readback = s.link.readback ∧
      (sendFrame c s).link.lastError = s.link.lastError ∧ (sendFrame c s).link.initValues = s.link.initValues ∧
      (sendFrame c s).link.consecutive = s.link.consecutive ∧ (sendFrame c s).link.initExpired = s.link.initExpired ∧
      (sendFrame c s).link.abandoning = s.link.abandoning ∧ (sendFrame c s).link.resetDue = s.link.resetDue ∧
      (sendFrame c s).link.setupSize = s.link.setupSize ∧ (sendFrame c s).buffer = s.buffer ∧
      (sendFrame c s).journal = s.journal ∧ (sendFrame c s).events = s.events ∧ (sendFrame c s).counters = s.counters ∧
      (sendFrame c s).ports.taken = s.ports.taken ∧ (sendFrame c s).ports.downstream = s.ports.downstream ∧
      (sendFrame c s).ports.upstream = s.ports.upstream ∧
      (sendFrame c s).ports.mgmtOut = s.ports.mgmtOut ∧ (sendFrame c s).pending = s.pending :=
  ⟨rfl, rfl, rfl, rfl, rfl, rfl, rfl, rfl, rfl, rfl, rfl, rfl, rfl, rfl, rfl, rfl, rfl, rfl, rfl, rfl, rfl, rfl, rfl, rfl, rfl, rfl, rfl, rfl, rfl, rfl, rfl, rfl, rfl, rfl, rfl, rfl, rfl, rfl, rfl, rfl, rfl, rfl, rfl, rfl, rfl⟩

@[simp] theorem restIn_keeps (s : State) (st : LinkState) :
    (restIn st s).pornLow = s.pornLow ∧ (restIn st s).mgmtIgnore = s.mgmtIgnore ∧ (restIn st s).held = s.held ∧
      (restIn st s).regions = s.regions ∧ (restIn st s).triggers = s.triggers ∧ (restIn st s).extents = s.extents ∧
      (restIn st s).words = s.words ∧ (restIn st s).argWord = s.argWord ∧ (restIn st s).rtq = s.rtq ∧
      (restIn st s).capture = s.capture ∧ (restIn st s).staging = s.staging ∧ (restIn st s).framer = s.framer ∧
      (restIn st s).window = s.window ∧ (restIn st s).markers = s.markers ∧ (restIn st s).space = s.space ∧
      (restIn st s).link.clockOn = s.link.clockOn ∧ (restIn st s).link.divisor = s.link.divisor ∧
      (restIn st s).link.width = s.link.width ∧ (restIn st s).link.tagCounter = s.link.tagCounter ∧
      (restIn st s).link.sentTag = s.link.sentTag ∧ (restIn st s).link.lastStatus = s.link.lastStatus ∧
      (restIn st s).link.storeId = s.link.storeId ∧ (restIn st s).link.genStoreId = s.link.genStoreId ∧
      (restIn st s).link.run = s.link.run ∧ (restIn st s).link.attempts = s.link.attempts ∧
      (restIn st s).link.sendCount = s.link.sendCount ∧ (restIn st s).link.idle = s.link.idle ∧
      (restIn st s).link.pauseReq = s.link.pauseReq ∧ (restIn st s).link.recovery = s.link.recovery ∧
      (restIn st s).link.readback = s.link.readback ∧ (restIn st s).link.lastError = s.link.lastError ∧
      (restIn st s).link.initValues = s.link.initValues ∧ (restIn st s).link.consecutive = s.link.consecutive ∧
      (restIn st s).link.initExpired = s.link.initExpired ∧ (restIn st s).link.abandoning = s.link.abandoning ∧
      (restIn st s).link.resetDue = s.link.resetDue ∧ (restIn st s).link.setupSize = s.link.setupSize ∧
      (restIn st s).buffer = s.buffer ∧ (restIn st s).journal = s.journal ∧ (restIn st s).events = s.events ∧
      (restIn st s).counters = s.counters ∧ (restIn st s).ports = s.ports ∧ (restIn st s).pending = s.pending :=
  ⟨rfl, rfl, rfl, rfl, rfl, rfl, rfl, rfl, rfl, rfl, rfl, rfl, rfl, rfl, rfl, rfl, rfl, rfl, rfl, rfl, rfl, rfl, rfl, rfl, rfl, rfl, rfl, rfl, rfl, rfl, rfl, rfl, rfl, rfl, rfl, rfl, rfl, rfl, rfl, rfl, rfl, rfl, rfl⟩

@[simp] theorem awaitGap_keeps (s : State) (c : LinkCmd) :
    (awaitGap c s).pornLow = s.pornLow ∧ (awaitGap c s).mgmtIgnore = s.mgmtIgnore ∧ (awaitGap c s).held = s.held ∧
      (awaitGap c s).regions = s.regions ∧ (awaitGap c s).triggers = s.triggers ∧ (awaitGap c s).extents = s.extents ∧
      (awaitGap c s).words = s.words ∧ (awaitGap c s).argWord = s.argWord ∧ (awaitGap c s).rtq = s.rtq ∧
      (awaitGap c s).capture = s.capture ∧ (awaitGap c s).staging = s.staging ∧ (awaitGap c s).framer = s.framer ∧
      (awaitGap c s).window = s.window ∧ (awaitGap c s).markers = s.markers ∧ (awaitGap c s).space = s.space ∧
      (awaitGap c s).link.state = s.link.state ∧ (awaitGap c s).link.clockOn = s.link.clockOn ∧
      (awaitGap c s).link.divisor = s.link.divisor ∧ (awaitGap c s).link.width = s.link.width ∧
      (awaitGap c s).link.tagCounter = s.link.tagCounter ∧ (awaitGap c s).link.sentTag = s.link.sentTag ∧
      (awaitGap c s).link.lastStatus = s.link.lastStatus ∧ (awaitGap c s).link.storeId = s.link.storeId ∧
      (awaitGap c s).link.genStoreId = s.link.genStoreId ∧ (awaitGap c s).link.run = s.link.run ∧
      (awaitGap c s).link.attempts = s.link.attempts ∧ (awaitGap c s).link.sendCount = s.link.sendCount ∧
      (awaitGap c s).link.idle = s.link.idle ∧ (awaitGap c s).link.pauseReq = s.link.pauseReq ∧
      (awaitGap c s).link.recovery = s.link.recovery ∧ (awaitGap c s).link.readback = s.link.readback ∧
      (awaitGap c s).link.lastError = s.link.lastError ∧ (awaitGap c s).link.initValues = s.link.initValues ∧
      (awaitGap c s).link.consecutive = s.link.consecutive ∧ (awaitGap c s).link.initExpired = s.link.initExpired ∧
      (awaitGap c s).link.abandoning = s.link.abandoning ∧ (awaitGap c s).link.resetDue = s.link.resetDue ∧
      (awaitGap c s).link.setupSize = s.link.setupSize ∧ (awaitGap c s).buffer = s.buffer ∧
      (awaitGap c s).journal = s.journal ∧ (awaitGap c s).events = s.events ∧ (awaitGap c s).counters = s.counters ∧
      (awaitGap c s).ports = s.ports ∧ (awaitGap c s).pending = s.pending :=
  ⟨rfl, rfl, rfl, rfl, rfl, rfl, rfl, rfl, rfl, rfl, rfl, rfl, rfl, rfl, rfl, rfl, rfl, rfl, rfl, rfl, rfl, rfl, rfl, rfl, rfl, rfl, rfl, rfl, rfl, rfl, rfl, rfl, rfl, rfl, rfl, rfl, rfl, rfl, rfl, rfl, rfl, rfl, rfl, rfl⟩

@[simp] theorem awaitBusy_keeps (s : State) (c : LinkCmd) :
    (awaitBusy c s).pornLow = s.pornLow ∧ (awaitBusy c s).mgmtIgnore = s.mgmtIgnore ∧ (awaitBusy c s).held = s.held ∧
      (awaitBusy c s).regions = s.regions ∧ (awaitBusy c s).triggers = s.triggers ∧ (awaitBusy c s).extents = s.extents ∧
      (awaitBusy c s).words = s.words ∧ (awaitBusy c s).argWord = s.argWord ∧ (awaitBusy c s).rtq = s.rtq ∧
      (awaitBusy c s).capture = s.capture ∧ (awaitBusy c s).staging = s.staging ∧ (awaitBusy c s).framer = s.framer ∧
      (awaitBusy c s).window = s.window ∧ (awaitBusy c s).markers = s.markers ∧ (awaitBusy c s).space = s.space ∧
      (awaitBusy c s).link.state = s.link.state ∧ (awaitBusy c s).link.clockOn = s.link.clockOn ∧
      (awaitBusy c s).link.divisor = s.link.divisor ∧ (awaitBusy c s).link.width = s.link.width ∧
      (awaitBusy c s).link.tagCounter = s.link.tagCounter ∧ (awaitBusy c s).link.sentTag = s.link.sentTag ∧
      (awaitBusy c s).link.lastStatus = s.link.lastStatus ∧ (awaitBusy c s).link.storeId = s.link.storeId ∧
      (awaitBusy c s).link.genStoreId = s.link.genStoreId ∧ (awaitBusy c s).link.run = s.link.run ∧
      (awaitBusy c s).link.attempts = s.link.attempts ∧ (awaitBusy c s).link.sendCount = s.link.sendCount ∧
      (awaitBusy c s).link.idle = s.link.idle ∧ (awaitBusy c s).link.pauseReq = s.link.pauseReq ∧
      (awaitBusy c s).link.recovery = s.link.recovery ∧ (awaitBusy c s).link.readback = s.link.readback ∧
      (awaitBusy c s).link.lastError = s.link.lastError ∧ (awaitBusy c s).link.initValues = s.link.initValues ∧
      (awaitBusy c s).link.consecutive = s.link.consecutive ∧ (awaitBusy c s).link.initExpired = s.link.initExpired ∧
      (awaitBusy c s).link.abandoning = s.link.abandoning ∧ (awaitBusy c s).link.resetDue = s.link.resetDue ∧
      (awaitBusy c s).link.setupSize = s.link.setupSize ∧ (awaitBusy c s).buffer = s.buffer ∧
      (awaitBusy c s).journal = s.journal ∧ (awaitBusy c s).events = s.events ∧ (awaitBusy c s).counters = s.counters ∧
      (awaitBusy c s).ports = s.ports ∧ (awaitBusy c s).pending = s.pending :=
  ⟨rfl, rfl, rfl, rfl, rfl, rfl, rfl, rfl, rfl, rfl, rfl, rfl, rfl, rfl, rfl, rfl, rfl, rfl, rfl, rfl, rfl, rfl, rfl, rfl, rfl, rfl, rfl, rfl, rfl, rfl, rfl, rfl, rfl, rfl, rfl, rfl, rfl, rfl, rfl, rfl, rfl, rfl, rfl, rfl⟩

@[simp] theorem closeRun_keeps (s : State) :
    (closeRun s).pornLow = s.pornLow ∧ (closeRun s).mgmtIgnore = s.mgmtIgnore ∧ (closeRun s).held = s.held ∧
      (closeRun s).regions = s.regions ∧ (closeRun s).triggers = s.triggers ∧ (closeRun s).extents = s.extents ∧
      (closeRun s).words = s.words ∧ (closeRun s).argWord = s.argWord ∧ (closeRun s).rtq = s.rtq ∧
      (closeRun s).capture = s.capture ∧ (closeRun s).staging = s.staging ∧ (closeRun s).framer = s.framer ∧
      (closeRun s).window = s.window ∧ (closeRun s).markers = s.markers ∧ (closeRun s).space = s.space ∧
      (closeRun s).link.phase = s.link.phase ∧ (closeRun s).link.clockOn = s.link.clockOn ∧
      (closeRun s).link.divisor = s.link.divisor ∧ (closeRun s).link.width = s.link.width ∧
      (closeRun s).link.tagCounter = s.link.tagCounter ∧ (closeRun s).link.sentTag = s.link.sentTag ∧
      (closeRun s).link.lastStatus = s.link.lastStatus ∧ (closeRun s).link.storeId = s.link.storeId ∧
      (closeRun s).link.genStoreId = s.link.genStoreId ∧ (closeRun s).link.attempts = s.link.attempts ∧
      (closeRun s).link.sendCount = s.link.sendCount ∧ (closeRun s).link.pauseReq = s.link.pauseReq ∧
      (closeRun s).link.recovery = s.link.recovery ∧ (closeRun s).link.readback = s.link.readback ∧
      (closeRun s).link.lastError = s.link.lastError ∧ (closeRun s).link.initValues = s.link.initValues ∧
      (closeRun s).link.consecutive = s.link.consecutive ∧ (closeRun s).link.initExpired = s.link.initExpired ∧
      (closeRun s).link.abandoning = s.link.abandoning ∧ (closeRun s).link.resetDue = s.link.resetDue ∧
      (closeRun s).link.setupSize = s.link.setupSize ∧ (closeRun s).buffer = s.buffer ∧ (closeRun s).journal = s.journal ∧
      (closeRun s).events = s.events ∧ (closeRun s).counters = s.counters ∧ (closeRun s).ports = s.ports ∧
      (closeRun s).pending = s.pending :=
  ⟨rfl, rfl, rfl, rfl, rfl, rfl, rfl, rfl, rfl, rfl, rfl, rfl, rfl, rfl, rfl, rfl, rfl, rfl, rfl, rfl, rfl, rfl, rfl, rfl, rfl, rfl, rfl, rfl, rfl, rfl, rfl, rfl, rfl, rfl, rfl, rfl, rfl, rfl, rfl, rfl, rfl, rfl⟩

@[simp] theorem linkError_keeps (s : State) (k : LinkErr) (c : LinkCmd) (tag : Byte) (serial addr : Option Word) (attempt : Nat) (o : ErrOutcome) :
    (linkError k c tag serial addr attempt o s).pornLow = s.pornLow ∧
      (linkError k c tag serial addr attempt o s).mgmtIgnore = s.mgmtIgnore ∧
      (linkError k c tag serial addr attempt o s).held = s.held ∧
      (linkError k c tag serial addr attempt o s).regions = s.regions ∧
      (linkError k c tag serial addr attempt o s).triggers = s.triggers ∧
      (linkError k c tag serial addr attempt o s).extents = s.extents ∧
      (linkError k c tag serial addr attempt o s).words = s.words ∧
      (linkError k c tag serial addr attempt o s).argWord = s.argWord ∧
      (linkError k c tag serial addr attempt o s).rtq = s.rtq ∧
      (linkError k c tag serial addr attempt o s).capture = s.capture ∧
      (linkError k c tag serial addr attempt o s).staging = s.staging ∧
      (linkError k c tag serial addr attempt o s).framer = s.framer ∧
      (linkError k c tag serial addr attempt o s).window = s.window ∧
      (linkError k c tag serial addr attempt o s).markers = s.markers ∧
      (linkError k c tag serial addr attempt o s).space = s.space ∧
      (linkError k c tag serial addr attempt o s).link.state = s.link.state ∧
      (linkError k c tag serial addr attempt o s).link.phase = s.link.phase ∧
      (linkError k c tag serial addr attempt o s).link.clockOn = s.link.clockOn ∧
      (linkError k c tag serial addr attempt o s).link.divisor = s.link.divisor ∧
      (linkError k c tag serial addr attempt o s).link.width = s.link.width ∧
      (linkError k c tag serial addr attempt o s).link.tagCounter = s.link.tagCounter ∧
      (linkError k c tag serial addr attempt o s).link.sentTag = s.link.sentTag ∧
      (linkError k c tag serial addr attempt o s).link.lastStatus = s.link.lastStatus ∧
      (linkError k c tag serial addr attempt o s).link.storeId = s.link.storeId ∧
      (linkError k c tag serial addr attempt o s).link.genStoreId = s.link.genStoreId ∧
      (linkError k c tag serial addr attempt o s).link.run = s.link.run ∧
      (linkError k c tag serial addr attempt o s).link.attempts = s.link.attempts ∧
      (linkError k c tag serial addr attempt o s).link.sendCount = s.link.sendCount ∧
      (linkError k c tag serial addr attempt o s).link.idle = s.link.idle ∧
      (linkError k c tag serial addr attempt o s).link.pauseReq = s.link.pauseReq ∧
      (linkError k c tag serial addr attempt o s).link.recovery = s.link.recovery ∧
      (linkError k c tag serial addr attempt o s).link.readback = s.link.readback ∧
      (linkError k c tag serial addr attempt o s).link.initValues = s.link.initValues ∧
      (linkError k c tag serial addr attempt o s).link.consecutive = s.link.consecutive ∧
      (linkError k c tag serial addr attempt o s).link.initExpired = s.link.initExpired ∧
      (linkError k c tag serial addr attempt o s).link.abandoning = s.link.abandoning ∧
      (linkError k c tag serial addr attempt o s).link.resetDue = s.link.resetDue ∧
      (linkError k c tag serial addr attempt o s).link.setupSize = s.link.setupSize ∧
      (linkError k c tag serial addr attempt o s).buffer = s.buffer ∧
      (linkError k c tag serial addr attempt o s).journal = s.journal ∧
      (linkError k c tag serial addr attempt o s).events.enables = s.events.enables ∧
      (linkError k c tag serial addr attempt o s).events.lineEnables = s.events.lineEnables ∧
      (linkError k c tag serial addr attempt o s).ports = s.ports ∧
      (linkError k c tag serial addr attempt o s).pending = s.pending :=
  by simp [linkError]

@[simp] theorem countRetry_keeps (s : State) :
    (countRetry s).pornLow = s.pornLow ∧ (countRetry s).mgmtIgnore = s.mgmtIgnore ∧ (countRetry s).held = s.held ∧
      (countRetry s).regions = s.regions ∧ (countRetry s).triggers = s.triggers ∧ (countRetry s).extents = s.extents ∧
      (countRetry s).words = s.words ∧ (countRetry s).argWord = s.argWord ∧ (countRetry s).rtq = s.rtq ∧
      (countRetry s).capture = s.capture ∧ (countRetry s).staging = s.staging ∧ (countRetry s).framer = s.framer ∧
      (countRetry s).window = s.window ∧ (countRetry s).markers = s.markers ∧ (countRetry s).space = s.space ∧
      (countRetry s).link = s.link ∧ (countRetry s).buffer = s.buffer ∧ (countRetry s).journal = s.journal ∧
      (countRetry s).events = s.events ∧ (countRetry s).ports = s.ports ∧ (countRetry s).pending = s.pending :=
  by simp [countRetry]

@[simp] theorem loadInit_keeps (s : State) :
    (loadInit s).pornLow = s.pornLow ∧ (loadInit s).mgmtIgnore = s.mgmtIgnore ∧ (loadInit s).held = s.held ∧
      (loadInit s).regions = s.regions ∧ (loadInit s).triggers = s.triggers ∧ (loadInit s).extents = s.extents ∧
      (loadInit s).words = s.words ∧ (loadInit s).argWord = s.argWord ∧ (loadInit s).rtq = s.rtq ∧
      (loadInit s).capture = s.capture ∧ (loadInit s).staging = s.staging ∧ (loadInit s).framer = s.framer ∧
      (loadInit s).window = s.window ∧ (loadInit s).markers = s.markers ∧ (loadInit s).space = s.space ∧
      (loadInit s).link.state = s.link.state ∧ (loadInit s).link.phase = s.link.phase ∧
      (loadInit s).link.tagCounter = s.link.tagCounter ∧ (loadInit s).link.sentTag = s.link.sentTag ∧
      (loadInit s).link.lastStatus = s.link.lastStatus ∧ (loadInit s).link.storeId = s.link.storeId ∧
      (loadInit s).link.genStoreId = s.link.genStoreId ∧ (loadInit s).link.run = s.link.run ∧
      (loadInit s).link.attempts = s.link.attempts ∧ (loadInit s).link.sendCount = s.link.sendCount ∧
      (loadInit s).link.idle = s.link.idle ∧ (loadInit s).link.pauseReq = s.link.pauseReq ∧
      (loadInit s).link.recovery = s.link.recovery ∧ (loadInit s).link.readback = s.link.readback ∧
      (loadInit s).link.lastError = s.link.lastError ∧ (loadInit s).link.consecutive = s.link.consecutive ∧
      (loadInit s).link.initExpired = s.link.initExpired ∧ (loadInit s).link.abandoning = s.link.abandoning ∧
      (loadInit s).link.resetDue = s.link.resetDue ∧ (loadInit s).link.setupSize = s.link.setupSize ∧
      (loadInit s).buffer = s.buffer ∧ (loadInit s).journal = s.journal ∧ (loadInit s).events = s.events ∧
      (loadInit s).counters = s.counters ∧ (loadInit s).ports = s.ports ∧ (loadInit s).pending = s.pending :=
  ⟨rfl, rfl, rfl, rfl, rfl, rfl, rfl, rfl, rfl, rfl, rfl, rfl, rfl, rfl, rfl, rfl, rfl, rfl, rfl, rfl, rfl, rfl, rfl, rfl, rfl, rfl, rfl, rfl, rfl, rfl, rfl, rfl, rfl, rfl, rfl, rfl, rfl, rfl, rfl, rfl, rfl⟩

@[simp] theorem initFromOff_keeps (s : State) :
    (initFromOff s).pornLow = s.pornLow ∧ (initFromOff s).mgmtIgnore = s.mgmtIgnore ∧ (initFromOff s).held = s.held ∧
      (initFromOff s).regions = s.regions ∧ (initFromOff s).triggers = s.triggers ∧ (initFromOff s).extents = s.extents ∧
      (initFromOff s).words = s.words ∧ (initFromOff s).argWord = s.argWord ∧ (initFromOff s).rtq = s.rtq ∧
      (initFromOff s).capture = s.capture ∧ (initFromOff s).staging = s.staging ∧ (initFromOff s).framer = s.framer ∧
      (initFromOff s).window = s.window ∧ (initFromOff s).markers = s.markers ∧ (initFromOff s).space = s.space ∧
      (initFromOff s).link.state = s.link.state ∧ (initFromOff s).link.tagCounter = s.link.tagCounter ∧
      (initFromOff s).link.sentTag = s.link.sentTag ∧ (initFromOff s).link.lastStatus = s.link.lastStatus ∧
      (initFromOff s).link.storeId = s.link.storeId ∧ (initFromOff s).link.genStoreId = s.link.genStoreId ∧
      (initFromOff s).link.run = s.link.run ∧ (initFromOff s).link.attempts = s.link.attempts ∧
      (initFromOff s).link.sendCount = s.link.sendCount ∧ (initFromOff s).link.idle = s.link.idle ∧
      (initFromOff s).link.pauseReq = s.link.pauseReq ∧ (initFromOff s).link.recovery = s.link.recovery ∧
      (initFromOff s).link.readback = s.link.readback ∧ (initFromOff s).link.lastError = s.link.lastError ∧
      (initFromOff s).link.consecutive = s.link.consecutive ∧ (initFromOff s).link.initExpired = s.link.initExpired ∧
      (initFromOff s).link.abandoning = s.link.abandoning ∧ (initFromOff s).link.resetDue = s.link.resetDue ∧
      (initFromOff s).link.setupSize = s.link.setupSize ∧ (initFromOff s).buffer = s.buffer ∧
      (initFromOff s).journal = s.journal ∧ (initFromOff s).events = s.events ∧ (initFromOff s).counters = s.counters ∧
      (initFromOff s).ports = s.ports ∧ (initFromOff s).pending = s.pending :=
  by simp [initFromOff]

end Sys2Proof.Machine
end

