-- ==== Sys2Proof/Laws/Path.lean ====
section
/-! SUPPORT. What leaves the path of a write alone. -/

namespace Sys2Proof.Machine

/-- Every field of the view, read through the view. -/
theorem to_path (s : State) :
    s.held = (path s).held ∧
      s.rtq = (path s).rtq ∧
      s.ports.downstream = (path s).downstream :=
  ⟨rfl, rfl, rfl⟩

/-- The view of a state given by its fields. -/
@[simp] theorem path_mk (pornLow mgmtIgnore held regions triggers extents words argWord rtq capture staging framer window
    markers space link buffer journal events counters ports pending) :
    path (State.mk pornLow mgmtIgnore held regions triggers extents words argWord rtq capture staging framer window
      markers space link buffer journal events counters ports pending) =
      ⟨held, rtq, ports.downstream⟩ := rfl

@[simp] theorem path_raiseIf (s : State) (c : Bool) (e : Event) : path (raiseIf c e s) = path s := by
  simp [raiseIf, to_path]

@[simp] theorem path_noteCut (s : State) : path (noteCut s) = path s := by
  simp [noteCut, to_path]

@[simp] theorem path_noteShifted (s : State) (bits : List Bool) : path (noteShifted bits s) = path s := by
  unfold noteShifted; split <;> simp [to_path]

@[simp] theorem path_raise (s : State) (e : Event) : path (raise e s) = path s := by
  simp [raise]

@[simp] theorem path_clearFlags (s : State) (v : Half) : path (clearFlags v s) = path s := by
  simp [clearFlags, to_path]

@[simp] theorem path_forceFlags (s : State) (v : Half) : path (forceFlags v s) = path s := by
  simp [forceFlags, to_path]

@[simp] theorem path_setEnables (s : State) (v : Half) : path (setEnables v s) = path s := by
  simp [setEnables, to_path]

@[simp] theorem path_setLineEnables (s : State) (v : Half) : path (setLineEnables v s) = path s := by
  simp [setLineEnables, to_path]

@[simp] theorem path_bump (s : State) (c : Counter) (n : Nat) : path (bump c n s) = path s := by
  simp [bump, to_path]

@[simp] theorem path_clearCounter (s : State) (i : Fin 15) : path (clearCounter i s) = path s := by
  simp [clearCounter, to_path]

@[simp] theorem path_clearEvents (s : State) : path (clearEvents s) = path s := by
  simp [clearEvents, to_path]

@[simp] theorem path_compareRise (s : State) : path (compareRise s) = path s := by
  simp [compareRise, to_path]

@[simp] theorem path_compareFall (s : State) : path (compareFall s) = path s := by
  simp [compareFall, to_path]

@[simp] theorem path_enterRecord (s : State) (b : Body) : path (enterRecord b s) = path s := by
  simp [enterRecord, to_path]

@[simp] theorem path_countCaptured (s : State) (w : WriteTxn) : path (countCaptured w s) = path s := by
  simp [countCaptured]

@[simp] theorem path_enterData (s : State) (w : WriteTxn) (r : Fin 16) (f : DataFields) : path (enterData w r f s) = path s := by
  simp [enterData, to_path]

@[simp] theorem path_noteTaken (s : State) (t : Txn) : path (noteTaken t s) = path s := by
  simp [noteTaken, to_path]

@[simp] theorem path_accountLost (s : State) (w : WriteTxn) (label : Byte) : path (accountLost w label s) = path s := by
  unfold accountLost; dsimp only; (repeat' split) <;> simp [to_path]

@[simp] theorem path_enterMark (s : State) (tag : Half) (src : Source) (fenced final : Bool) : path (enterMark tag src fenced final s) = path s := by
  simp [enterMark, to_path]

@[simp] theorem path_loseMark (s : State) : path (loseMark s) = path s := by
  simp [loseMark]

@[simp] theorem path_mergeWrite (s : State) (o : OpenRec) (w : WriteTxn) : path (mergeWrite o w s) = path s := by
  unfold mergeWrite; split <;> simp [to_path]

@[simp] theorem path_lateVoid (s : State) : path (lateVoid s) = path s := by
  simp [lateVoid]

@[simp] theorem path_compareLow (s : State) : path (compareLow s) = path s := by
  simp [compareLow, to_path]

@[simp] theorem path_advanceHead (s : State) : path (advanceHead s) = path s := by
  simp [advanceHead, to_path]

@[simp] theorem path_nextNumber (s : State) : path (nextNumber s) = path s := by
  simp [nextNumber, to_path]

@[simp] theorem path_runCommand (s : State) (code : BitVec 4) : path (runCommand code s) = path s := by
  simp [runCommand, to_path]

@[simp] theorem path_answerCommand (s : State) (code : BitVec 4) (status : CmdStatus) (reason : Option Reason) (r0 r1 : Word) : path (answerCommand code status reason r0 r1 s) = path s := by
  simp [answerCommand, to_path]

@[simp] theorem path_refuse (s : State) (code : BitVec 4) (reason : Reason) : path (refuse code reason s) = path s := by
  simp [refuse]

@[simp] theorem path_complete (s : State) (code : BitVec 4) (r0 r1 : Word) : path (complete code r0 r1 s) = path s := by
  simp [complete]

@[simp] theorem path_endRunning (s : State) (status : CmdStatus) (reason : Option Reason) (r0 r1 : Word) : path (endRunning status reason r0 r1 s) = path s := by
  simp [endRunning, to_path]

@[simp] theorem path_overtake (s : State) : path (overtake s) = path s := by
  simp [overtake, to_path]

@[simp] theorem path_takeCommand (s : State) (code : BitVec 4) (admitted : Bool) (own : State → State) (hf : ∀ s, path (own s) = path s) : path (takeCommand code admitted own s) = path s := by
  unfold takeCommand; dsimp only; (repeat' split) <;> simp [to_path, hf]

@[simp] theorem path_quiescent (s : State) : path (quiescent s) = path s := by
  unfold quiescent; (repeat' split) <;> simp [to_path]

@[simp] theorem path_faultSignal (s : State) : path (faultSignal s) = path s := by
  unfold faultSignal; split <;> simp [to_path]

@[simp] theorem path_startReady (s : State) : path (startReady s) = path s := by
  simp [startReady, to_path]

@[simp] theorem path_recovered (s : State) : path (recovered s) = path s := by
  unfold recovered; split <;> simp [to_path]

@[simp] theorem path_setSlot (s : State) (i : Fin 8) (x : Slot) : path (setSlot i x s) = path s := by
  simp [setSlot, to_path]

@[simp] theorem path_returnInFlight (s : State) : path (returnInFlight s) = path s := by
  simp [returnInFlight, to_path]

@[simp] theorem path_openBlock (s : State) (i : Fin 8) : path (openBlock i s) = path s := by
  simp [openBlock, to_path]

@[simp] theorem path_sealBlock (s : State) (i : Fin 8) (d : Draft) (cause : SealCause) : path (sealBlock i d cause s) = path s := by
  simp [sealBlock, to_path]

@[simp] theorem path_placeMark (s : State) (recSeq serial : Word) : path (placeMark recSeq serial s) = path s := by
  simp [placeMark, to_path]

@[simp] theorem path_serveDue (s : State) (i : Fin 8) (d : Draft) : path (serveDue i d s) = path s := by
  unfold serveDue; (repeat' split) <;> simp [to_path]

@[simp] theorem path_serveIfDue (s : State) : path (serveIfDue s) = path s := by
  unfold serveIfDue; (repeat' split) <;> simp [to_path]

@[simp] theorem path_copyFragment (s : State) (i : Fin 8) (d : Draft) : path (copyFragment i d s) = path s := by
  unfold copyFragment; dsimp only; (repeat' split) <;> simp [to_path]

@[simp] theorem path_framerStep (s : State) : path (framerStep s) = path s := by
  unfold framerStep; dsimp only; (repeat' split) <;> simp [to_path]

@[simp] theorem path_sealTimerRunsOut (s : State) : path (sealTimerRunsOut s) = path s := by
  simp [sealTimerRunsOut, to_path]

@[simp] theorem path_requestPauseSeal (s : State) : path (requestPauseSeal s) = path s := by
  unfold requestPauseSeal; split <;> simp [to_path]

@[simp] theorem path_sendFrame (s : State) (c : LinkCmd) : path (sendFrame c s) = path s := by
  simp [sendFrame, to_path]

@[simp] theorem path_restIn (s : State) (st : LinkState) : path (restIn st s) = path s := by
  simp [restIn, to_path]

@[simp] theorem path_awaitGap (s : State) (c : LinkCmd) : path (awaitGap c s) = path s := by
  simp [awaitGap, to_path]

@[simp] theorem path_issueCommand (s : State) (c : LinkCmd) : path (issueCommand c s) = path s := by
  unfold issueCommand; split <;> simp [to_path]

@[simp] theorem path_startBlock (s : State) : path (startBlock s) = path s := by
  unfold startBlock; split <;> simp [to_path]

@[simp] theorem path_endIdleRun (s : State) (cmdGap : Bool) : path (endIdleRun cmdGap s) = path s := by
  unfold endIdleRun; split <;> simp [to_path]

@[simp] theorem path_startIdle (s : State) (cmdGap : Bool) : path (startIdle cmdGap s) = path s := by
  unfold startIdle; (repeat' split) <;> simp [to_path]

@[simp] theorem path_act (s : State) (cmdGap dataGap : Bool) (c : Choice) : path (act cmdGap dataGap s c) = path s := by
  unfold act; (repeat' split) <;> simp [to_path]

@[simp] theorem path_closeRun (s : State) : path (closeRun s) = path s := by
  simp [closeRun, to_path]

@[simp] theorem path_linkChoose (s : State) : path (linkChoose s) = path s := by
  unfold linkChoose; (repeat' split) <;> simp [to_path]

@[simp] theorem path_linkError (s : State) (k : LinkErr) (c : LinkCmd) (tag : Byte) (serial addr : Option Word) (attempt : Nat) (o : ErrOutcome) : path (linkError k c tag serial addr attempt o s) = path s := by
  simp [linkError, to_path]

@[simp] theorem path_enterFault (s : State) : path (enterFault s) = path s := by
  simp [enterFault, to_path]

@[simp] theorem path_countRetry (s : State) : path (countRetry s) = path s := by
  simp [countRetry]

@[simp] theorem path_loadInit (s : State) : path (loadInit s) = path s := by
  simp [loadInit, to_path]

@[simp] theorem path_initFromOff (s : State) : path (initFromOff s) = path s := by
  simp [initFromOff, to_path]

@[simp] theorem path_beginInit (s : State) : path (beginInit s) = path s := by
  unfold beginInit; dsimp only; (repeat' split) <;> simp [to_path]

@[simp] theorem path_initSucceeds (s : State) : path (initSucceeds s) = path s := by
  unfold initSucceeds; dsimp only; (repeat' split) <;> simp [to_path]

@[simp] theorem path_initFails (s : State) (k : LinkErr) (c : LinkCmd) : path (initFails k c s) = path s := by
  simp [initFails]

@[simp] theorem path_initTransport (s : State) (k : LinkErr) (c : LinkCmd) : path (initTransport k c s) = path s := by
  unfold initTransport; dsimp only; (repeat' split) <;> simp [to_path]

@[simp] theorem path_keepIdentity (s : State) (i : Identity) : path (keepIdentity i s) = path s := by
  simp [keepIdentity, to_path]

@[simp] theorem path_identTaken (s : State) (i : Identity) : path (identTaken i s) = path s := by
  unfold identTaken; dsimp only; (repeat' split) <;> simp [to_path]

@[simp] theorem path_endReadback (s : State) (status : CmdStatus) (reason : Option Reason) : path (endReadback status reason s) = path s := by
  simp [endReadback, to_path]

@[simp] theorem path_commandFails (s : State) (c : LinkCmd) : path (commandFails c s) = path s := by
  unfold commandFails; split <;> simp [to_path]

@[simp] theorem path_retryOrFail (s : State) (k : LinkErr) (c : LinkCmd) : path (retryOrFail k c s) = path s := by
  unfold retryOrFail; dsimp only; (repeat' split) <;> simp [to_path]

@[simp] theorem path_transportError (s : State) (k : LinkErr) (c : LinkCmd) : path (transportError k c s) = path s := by
  unfold transportError; split <;> simp [to_path]

@[simp] theorem path_statusError (s : State) (k : LinkErr) (c : LinkCmd) (status : Word) : path (statusError k c status s) = path s := by
  unfold statusError; dsimp only; (repeat' split) <;> simp [to_path]

@[simp] theorem path_discardExchange (s : State) : path (discardExchange s) = path s := by
  simp [discardExchange, to_path]

@[simp] theorem path_inWindow (s : State) (c : LinkCmd) (f : State → State) (hf : ∀ s, path (f s) = path s) : path (inWindow c f s) = path s := by
  unfold inWindow; (repeat' split) <;> simp [to_path, hf]

@[simp] theorem path_shortResponse (s : State) (c : LinkCmd) (bits : BitVec 64) (taken : State → State) (hf : ∀ s, path (taken s) = path s) : path (shortResponse c bits taken s) = path s := by
  exact path_inWindow s c _ fun s => by
    dsimp only; (repeat' split) <;> simp [to_path, hf]

@[simp] theorem path_awaitBusy (s : State) (c : LinkCmd) : path (awaitBusy c s) = path s := by
  simp [awaitBusy, to_path]

@[simp] theorem path_closeAfterFailure (s : State) : path (closeAfterFailure s) = path s := by
  simp [closeAfterFailure, to_path]

@[simp] theorem path_acceptToken (s : State) (serial addr : Word) : path (acceptToken serial addr s) = path s := by
  unfold acceptToken; dsimp only; (repeat' split) <;> simp [to_path]

@[simp] theorem path_blockFails (s : State) (k : LinkErr) (awaits : Bool) (serial addr : Word) : path (blockFails k awaits serial addr s) = path s := by
  unfold blockFails; dsimp only; (repeat' split) <;> simp [to_path]

@[simp] theorem path_inTokenWindow (s : State) (f : Word → Word → State → State) (hf : ∀ serial addr s, path (f serial addr s) = path s) : path (inTokenWindow f s) = path s := by
  unfold inTokenWindow; split <;> simp [to_path, hf]

@[simp] theorem path_takeToken (s : State) (t : Token) : path (takeToken t s) = path s := by
  unfold takeToken; split <;> simp [to_path]

@[simp] theorem path_tokenBusyEnds (s : State) : path (tokenBusyEnds s) = path s := by
  unfold tokenBusyEnds; (repeat' split) <;> simp [to_path]

@[simp] theorem path_moveBoundary (s : State) : path (moveBoundary s) = path s := by
  simp [moveBoundary, to_path]

@[simp] theorem path_tokenBusyTimeout (s : State) (serial addr : Word) : path (tokenBusyTimeout serial addr s) = path s := by
  simp [tokenBusyTimeout, to_path]

@[simp] theorem path_commandBusyTimeout (s : State) (c : LinkCmd) : path (commandBusyTimeout c s) = path s := by
  simp [commandBusyTimeout]

@[simp] theorem path_abandonLink (s : State) : path (abandonLink s) = path s := by
  unfold abandonLink; dsimp only; (repeat' split) <;> simp [to_path]

@[simp] theorem path_abandonmentEnds (s : State) : path (abandonmentEnds s) = path s := by
  unfold abandonmentEnds; dsimp only; (repeat' split) <;> simp [to_path]

@[simp] theorem path_admitFinal (s : State) : path (admitFinal s) = path s := by
  unfold admitFinal; split <;> simp [to_path]

@[simp] theorem path_pinRequest (s : State) : path (pinRequest s) = path s := by
  unfold pinRequest; (repeat' split) <;> simp [to_path]

@[simp] theorem path_framerCopies (s : State) : path (framerCopies s) = path s := by
  simp [framerCopies]

@[simp] theorem path_sealTimerExpires (s : State) : path (sealTimerExpires s) = path s := by
  unfold sealTimerExpires; split <;> simp [to_path]

@[simp] theorem path_idlePeriodEnds (s : State) : path (idlePeriodEnds s) = path s := by
  unfold idlePeriodEnds; split <;> simp [to_path]

@[simp] theorem path_settleEnds (s : State) : path (settleEnds s) = path s := by
  unfold settleEnds; (repeat' split) <;> simp [to_path]

@[simp] theorem path_frameEnds (s : State) (c : LinkCmd) : path (frameEnds c s) = path s := by
  unfold frameEnds; split <;> simp [to_path]

@[simp] theorem path_commandFrameEnds (s : State) : path (commandFrameEnds s) = path s := by
  unfold commandFrameEnds; split <;> simp [to_path]

@[simp] theorem path_commandGapEnds (s : State) : path (commandGapEnds s) = path s := by
  unfold commandGapEnds; split <;> simp [to_path]

@[simp] theorem path_windowTimeout (s : State) : path (windowTimeout s) = path s := by
  unfold windowTimeout; split <;> simp [to_path]

@[simp] theorem path_identResponse (s : State) (bits : BitVec 160) : path (identResponse bits s) = path s := by
  exact path_inWindow s .ident _ fun s => by split <;> simp

@[simp] theorem path_pollEnds (s : State) : path (pollEnds s) = path s := by
  unfold pollEnds; split <;> simp [to_path]

@[simp] theorem path_initLimit (s : State) : path (initLimit s) = path s := by
  unfold initLimit; (repeat' split) <;> simp [to_path]

@[simp] theorem path_setupTaken (s : State) : path (setupTaken s) = path s := by
  simp [setupTaken, to_path]

@[simp] theorem path_writeRunTaken (s : State) : path (writeRunTaken s) = path s := by
  simp [writeRunTaken, to_path]

@[simp] theorem path_endRunTaken (s : State) : path (endRunTaken s) = path s := by
  simp [endRunTaken, to_path]

@[simp] theorem path_readOneTaken (s : State) : path (readOneTaken s) = path s := by
  simp [readOneTaken, to_path]

@[simp] theorem path_dataGapEnds (s : State) : path (dataGapEnds s) = path s := by
  unfold dataGapEnds; (repeat' split) <;> simp [to_path]

@[simp] theorem path_blockOutEnds (s : State) : path (blockOutEnds s) = path s := by
  unfold blockOutEnds; split <;> simp [to_path]

@[simp] theorem path_busyExpires (s : State) : path (busyExpires s) = path s := by
  unfold busyExpires; split <;> simp [to_path]

@[simp] theorem path_idleExpires (s : State) : path (idleExpires s) = path s := by
  unfold idleExpires; split <;> simp [to_path]

@[simp] theorem path_blockReceived (s : State) (b : BlockIn) : path (blockReceived b s) = path s := by
  unfold blockReceived; dsimp only; (repeat' split) <;> simp [to_path]

@[simp] theorem path_readBlockIn (s : State) (b : BlockIn) : path (readBlockIn b s) = path s := by
  unfold readBlockIn; split <;> simp [to_path]

@[simp] theorem path_readWindowExpires (s : State) : path (readWindowExpires s) = path s := by
  unfold readWindowExpires; split <;> simp [to_path]

@[simp] theorem path_startCompares (s : State) : path (startCompares s) = path s := by
  simp [startCompares]

@[simp] theorem path_startTaken (s : State) (p : Placement) (generation : Half) (ch : List Extent) : path (startTaken p generation ch s) = path s := by
  simp [startTaken, to_path]

@[simp] theorem path_startOwn (s : State) (placement : BitVec 2) (generation : Half) : path (startOwn placement generation s) = path s := by
  unfold startOwn; (repeat' split) <;> simp [to_path]

@[simp] theorem path_startCommand (s : State) (placement : BitVec 2) (generation : Half) : path (startCommand placement generation s) = path s := by
  simp [startCommand]

@[simp] theorem path_haltMarkers (s : State) : path (haltMarkers s) = path s := by
  simp [haltMarkers, to_path]

@[simp] theorem path_pauseOwn (s : State) : path (pauseOwn s) = path s := by
  unfold pauseOwn; split <;> simp [to_path]

@[simp] theorem path_pauseCommand (s : State) : path (pauseCommand s) = path s := by
  simp [pauseCommand]

@[simp] theorem path_resumeTaken (s : State) : path (resumeTaken s) = path s := by
  simp [resumeTaken, to_path]

@[simp] theorem path_resumeOwn (s : State) : path (resumeOwn s) = path s := by
  unfold resumeOwn; split <;> simp [to_path]

@[simp] theorem path_resumeCommand (s : State) : path (resumeCommand s) = path s := by
  simp [resumeCommand]

@[simp] theorem path_markOwn (s : State) (tag : Half) : path (markOwn tag s) = path s := by
  unfold markOwn; (repeat' split) <;> simp [to_path]

@[simp] theorem path_markCommand (s : State) (tag : Half) : path (markCommand tag s) = path s := by
  simp [markCommand]

@[simp] theorem path_reclaimBlocks (s : State) (n : Nat) : path (reclaimBlocks n s) = path s := by
  simp [reclaimBlocks, to_path]

@[simp] theorem path_reclaimOwn (s : State) : path (reclaimOwn s) = path s := by
  unfold reclaimOwn; dsimp only; (repeat' split) <;> simp [to_path]

@[simp] theorem path_reclaimCommand (s : State) : path (reclaimCommand s) = path s := by
  simp [reclaimCommand]

@[simp] theorem path_readbackOwn (s : State) : path (readbackOwn s) = path s := by
  unfold readbackOwn; dsimp only; (repeat' split) <;> simp [to_path]

@[simp] theorem path_readbackCommand (s : State) : path (readbackCommand s) = path s := by
  simp [readbackCommand]

@[simp] theorem path_recoverOwn (s : State) : path (recoverOwn s) = path s := by
  unfold recoverOwn; split <;> simp [to_path]

@[simp] theorem path_recoverCommand (s : State) : path (recoverCommand s) = path s := by
  simp [recoverCommand]

@[simp] theorem path_badCodeCommand (s : State) (code : BitVec 4) : path (badCodeCommand code s) = path s := by
  simp [badCodeCommand]

@[simp] theorem path_setLocked (s : State) (a : Half) (v : Word) : path (setLocked a v s) = path s := by
  unfold setLocked; (repeat' split) <;> simp [to_path]

@[simp] theorem path_lockedWrite (s : State) (a : Half) (v : Word) : path (lockedWrite a v s) = path s := by
  unfold lockedWrite; split <;> simp [to_path]

@[simp] theorem path_writeLowWatermark (s : State) (v : Word) : path (writeLowWatermark v s) = path s := by
  simp [writeLowWatermark, to_path]

@[simp] theorem path_openWrite (s : State) (a : Half) (v : Word) : path (openWrite a v s) = path s := by
  unfold openWrite; (repeat' split) <;> simp [to_path]

@[simp] theorem path_badFrame (s : State) : path (badFrame s) = path s := by
  simp [badFrame]

end Sys2Proof.Machine
end

