-- ==== Sys2Proof/Laws/Settings.lean ====
section
/-! SUPPORT. What leaves the settings alone: every operation but those that write registers, take a transaction, answer one, fill the
readback buffer or follow PORn. -/

namespace Sys2Proof.Machine

/-- Every field of the view, read through the view. -/
theorem to_settings (s : State) :
    s.pornLow = (settings s).pornLow ∧
      s.mgmtIgnore = (settings s).mgmtIgnore ∧
      s.regions = (settings s).regions ∧
      s.triggers = (settings s).triggers ∧
      s.extents = (settings s).extents ∧
      s.words = (settings s).words ∧
      s.argWord = (settings s).argWord ∧
      s.events.enables = (settings s).enables ∧
      s.events.lineEnables = (settings s).lineEnables ∧
      s.buffer = (settings s).buffer ∧
      s.ports.taken = (settings s).taken ∧
      s.ports.upstream = (settings s).upstream ∧
      s.pending = (settings s).pending :=
  ⟨rfl, rfl, rfl, rfl, rfl, rfl, rfl, rfl, rfl, rfl, rfl, rfl, rfl⟩

/-- The view of a state given by its fields. -/
@[simp] theorem settings_mk (pornLow mgmtIgnore held regions triggers extents words argWord rtq capture staging framer window
    markers space link buffer journal events counters ports pending) :
    settings (State.mk pornLow mgmtIgnore held regions triggers extents words argWord rtq capture staging framer window
      markers space link buffer journal events counters ports pending) =
      ⟨pornLow, mgmtIgnore, regions, triggers, extents, words, argWord, events.enables, events.lineEnables, buffer, ports.taken, ports.upstream, pending⟩ := rfl

@[simp] theorem settings_raiseIf (s : State) (c : Bool) (e : Event) : settings (raiseIf c e s) = settings s := by
  simp [raiseIf, to_settings]

@[simp] theorem settings_raise (s : State) (e : Event) : settings (raise e s) = settings s := by
  simp [raise]

@[simp] theorem settings_clearFlags (s : State) (v : Half) : settings (clearFlags v s) = settings s := by
  simp [clearFlags, to_settings]

@[simp] theorem settings_forceFlags (s : State) (v : Half) : settings (forceFlags v s) = settings s := by
  simp [forceFlags, to_settings]

@[simp] theorem settings_bump (s : State) (c : Counter) (n : Nat) : settings (bump c n s) = settings s := by
  simp [bump, to_settings]

@[simp] theorem settings_clearCounter (s : State) (i : Fin 15) : settings (clearCounter i s) = settings s := by
  simp [clearCounter, to_settings]

@[simp] theorem settings_clearEvents (s : State) : settings (clearEvents s) = settings s := by
  simp [clearEvents, to_settings]

@[simp] theorem settings_compareRise (s : State) : settings (compareRise s) = settings s := by
  simp [compareRise, to_settings]

@[simp] theorem settings_compareFall (s : State) : settings (compareFall s) = settings s := by
  simp [compareFall, to_settings]

@[simp] theorem settings_enterRecord (s : State) (b : Body) : settings (enterRecord b s) = settings s := by
  simp [enterRecord, to_settings]

@[simp] theorem settings_countCaptured (s : State) (w : WriteTxn) : settings (countCaptured w s) = settings s := by
  simp [countCaptured]

@[simp] theorem settings_enterData (s : State) (w : WriteTxn) (r : Fin 16) (f : DataFields) : settings (enterData w r f s) = settings s := by
  simp [enterData, to_settings]

@[simp] theorem settings_forwardWrite (s : State) (w : WriteTxn) : settings (forwardWrite w s) = settings s := by
  simp [forwardWrite, to_settings]

@[simp] theorem settings_forwardRead (s : State) (r : ReadTxn) : settings (forwardRead r s) = settings s := by
  simp [forwardRead, to_settings]

@[simp] theorem settings_noteCut (s : State) : settings (noteCut s) = settings s := by
  simp [noteCut, to_settings]

@[simp] theorem settings_noteShifted (s : State) (bits : List Bool) : settings (noteShifted bits s) = settings s := by
  unfold noteShifted; split <;> simp [to_settings]

@[simp] theorem settings_finishWrite (s : State) (w : WriteTxn) : settings (finishWrite w s) = settings s := by
  simp [finishWrite, to_settings]

@[simp] theorem settings_holdWrite (s : State) (w : WriteTxn) (h : Hold) (limit : Nat) : settings (holdWrite w h limit s) = settings s := by
  simp [holdWrite, to_settings]

@[simp] theorem settings_accountLost (s : State) (w : WriteTxn) (label : Byte) : settings (accountLost w label s) = settings s := by
  unfold accountLost; dsimp only; (repeat' split) <;> simp [to_settings]

@[simp] theorem settings_enterMark (s : State) (tag : Half) (src : Source) (fenced final : Bool) : settings (enterMark tag src fenced final s) = settings s := by
  simp [enterMark, to_settings]

@[simp] theorem settings_loseMark (s : State) : settings (loseMark s) = settings s := by
  simp [loseMark]

@[simp] theorem settings_afterMark (s : State) (w : WriteTxn) (trig : Fin 4) (epoch : Word) : settings (afterMark w trig epoch s) = settings s := by
  unfold afterMark; split <;> simp [to_settings]

@[simp] theorem settings_admitTriggerMark (s : State) (w : WriteTxn) (trig : Fin 4) : settings (admitTriggerMark w trig s) = settings s := by
  simp [admitTriggerMark]

@[simp] theorem settings_beginMarkerWait (s : State) (w : WriteTxn) (region : Option (Fin 16)) (trig : Fin 4) : settings (beginMarkerWait w region trig s) = settings s := by
  unfold beginMarkerWait; (repeat' split) <;> simp [to_settings]

@[simp] theorem settings_afterData (s : State) (w : WriteTxn) (region : Fin 16) (trig : Option (Fin 4)) : settings (afterData w region trig s) = settings s := by
  unfold afterData; split <;> simp [to_settings]

@[simp] theorem settings_takeEntry (s : State) (w : WriteTxn) (seq : Word) (ended : Bool) : settings (takeEntry w seq ended s) = settings s := by
  simp [takeEntry, to_settings]

@[simp] theorem settings_trackWrite (s : State) (w : WriteTxn) (seq : Word) (region : Fin 16) (trig : Option (Fin 4)) : settings (trackWrite w seq region trig s) = settings s := by
  unfold trackWrite; split <;> simp [to_settings]

@[simp] theorem settings_mergeWrite (s : State) (o : OpenRec) (w : WriteTxn) : settings (mergeWrite o w s) = settings s := by
  unfold mergeWrite; split <;> simp [to_settings]

@[simp] theorem settings_offerData (s : State) (w : WriteTxn) (r : Fin 16) (trig : Option (Fin 4)) : settings (offerData w r trig s) = settings s := by
  unfold offerData; dsimp only; (repeat' split) <;> simp [to_settings]

@[simp] theorem settings_captureWrite (s : State) (w : WriteTxn) (r : Fin 16) (trig : Option (Fin 4)) : settings (captureWrite w r trig s) = settings s := by
  unfold captureWrite; (repeat' split) <;> simp [to_settings]

@[simp] theorem settings_classifyWrite (s : State) (w : WriteTxn) : settings (classifyWrite w s) = settings s := by
  unfold classifyWrite; (repeat' split) <;> simp [to_settings]

@[simp] theorem settings_lateVoid (s : State) : settings (lateVoid s) = settings s := by
  simp [lateVoid]

@[simp] theorem settings_errorResponse (s : State) (e : TrackEntry) : settings (errorResponse e s) = settings s := by
  unfold errorResponse; (repeat' split) <;> simp [to_settings]

@[simp] theorem settings_releaseTracking (s : State) : settings (releaseTracking s) = settings s := by
  unfold releaseTracking; (repeat' split) <;> simp [to_settings]

@[simp] theorem settings_matchResponse (s : State) (answer : WriteAnswer) : settings (matchResponse answer s) = settings s := by
  unfold matchResponse; (repeat' split) <;> simp [to_settings]

@[simp] theorem settings_endTracking (s : State) : settings (endTracking s) = settings s := by
  simp [endTracking, to_settings]

@[simp] theorem settings_settleHeldForStop (s : State) : settings (settleHeldForStop s) = settings s := by
  unfold settleHeldForStop; (repeat' split) <;> simp [to_settings]

@[simp] theorem settings_forwardHeld (s : State) : settings (forwardHeld s) = settings s := by
  unfold forwardHeld; split <;> simp [to_settings]

@[simp] theorem settings_compareLow (s : State) : settings (compareLow s) = settings s := by
  simp [compareLow, to_settings]

@[simp] theorem settings_advanceHead (s : State) : settings (advanceHead s) = settings s := by
  simp [advanceHead, to_settings]

@[simp] theorem settings_nextNumber (s : State) : settings (nextNumber s) = settings s := by
  simp [nextNumber, to_settings]

@[simp] theorem settings_runCommand (s : State) (code : BitVec 4) : settings (runCommand code s) = settings s := by
  simp [runCommand, to_settings]

@[simp] theorem settings_answerCommand (s : State) (code : BitVec 4) (status : CmdStatus) (reason : Option Reason) (r0 r1 : Word) : settings (answerCommand code status reason r0 r1 s) = settings s := by
  simp [answerCommand, to_settings]

@[simp] theorem settings_refuse (s : State) (code : BitVec 4) (reason : Reason) : settings (refuse code reason s) = settings s := by
  simp [refuse]

@[simp] theorem settings_complete (s : State) (code : BitVec 4) (r0 r1 : Word) : settings (complete code r0 r1 s) = settings s := by
  simp [complete]

@[simp] theorem settings_endRunning (s : State) (status : CmdStatus) (reason : Option Reason) (r0 r1 : Word) : settings (endRunning status reason r0 r1 s) = settings s := by
  simp [endRunning, to_settings]

@[simp] theorem settings_overtake (s : State) : settings (overtake s) = settings s := by
  simp [overtake, to_settings]

@[simp] theorem settings_takeCommand (s : State) (code : BitVec 4) (admitted : Bool) (own : State → State) (hf : ∀ s, settings (own s) = settings s) : settings (takeCommand code admitted own s) = settings s := by
  unfold takeCommand; dsimp only; (repeat' split) <;> simp [to_settings, hf]

@[simp] theorem settings_quiescent (s : State) : settings (quiescent s) = settings s := by
  unfold quiescent; (repeat' split) <;> simp [to_settings]

@[simp] theorem settings_faultSignal (s : State) : settings (faultSignal s) = settings s := by
  unfold faultSignal; split <;> simp [to_settings]

@[simp] theorem settings_startReady (s : State) : settings (startReady s) = settings s := by
  simp [startReady, to_settings]

@[simp] theorem settings_recovered (s : State) : settings (recovered s) = settings s := by
  unfold recovered; split <;> simp [to_settings]

@[simp] theorem settings_stopCompletes (s : State) : settings (stopCompletes s) = settings s := by
  unfold stopCompletes; split <;> simp [to_settings]

@[simp] theorem settings_setSlot (s : State) (i : Fin 8) (x : Slot) : settings (setSlot i x s) = settings s := by
  simp [setSlot, to_settings]

@[simp] theorem settings_returnInFlight (s : State) : settings (returnInFlight s) = settings s := by
  simp [returnInFlight, to_settings]

@[simp] theorem settings_openBlock (s : State) (i : Fin 8) : settings (openBlock i s) = settings s := by
  simp [openBlock, to_settings]

@[simp] theorem settings_sealBlock (s : State) (i : Fin 8) (d : Draft) (cause : SealCause) : settings (sealBlock i d cause s) = settings s := by
  simp [sealBlock, to_settings]

@[simp] theorem settings_placeMark (s : State) (recSeq serial : Word) : settings (placeMark recSeq serial s) = settings s := by
  simp [placeMark, to_settings]

@[simp] theorem settings_serveDue (s : State) (i : Fin 8) (d : Draft) : settings (serveDue i d s) = settings s := by
  unfold serveDue; (repeat' split) <;> simp [to_settings]

@[simp] theorem settings_serveIfDue (s : State) : settings (serveIfDue s) = settings s := by
  unfold serveIfDue; (repeat' split) <;> simp [to_settings]

@[simp] theorem settings_copyFragment (s : State) (i : Fin 8) (d : Draft) : settings (copyFragment i d s) = settings s := by
  unfold copyFragment; dsimp only; (repeat' split) <;> simp [to_settings]

@[simp] theorem settings_framerStep (s : State) : settings (framerStep s) = settings s := by
  unfold framerStep; dsimp only; (repeat' split) <;> simp [to_settings]

@[simp] theorem settings_sealTimerRunsOut (s : State) : settings (sealTimerRunsOut s) = settings s := by
  simp [sealTimerRunsOut, to_settings]

@[simp] theorem settings_requestPauseSeal (s : State) : settings (requestPauseSeal s) = settings s := by
  unfold requestPauseSeal; split <;> simp [to_settings]

@[simp] theorem settings_sendFrame (s : State) (c : LinkCmd) : settings (sendFrame c s) = settings s := by
  simp [sendFrame, to_settings]

@[simp] theorem settings_restIn (s : State) (st : LinkState) : settings (restIn st s) = settings s := by
  simp [restIn, to_settings]

@[simp] theorem settings_awaitGap (s : State) (c : LinkCmd) : settings (awaitGap c s) = settings s := by
  simp [awaitGap, to_settings]

@[simp] theorem settings_issueCommand (s : State) (c : LinkCmd) : settings (issueCommand c s) = settings s := by
  unfold issueCommand; split <;> simp [to_settings]

@[simp] theorem settings_startBlock (s : State) : settings (startBlock s) = settings s := by
  unfold startBlock; split <;> simp [to_settings]

@[simp] theorem settings_endIdleRun (s : State) (cmdGap : Bool) : settings (endIdleRun cmdGap s) = settings s := by
  unfold endIdleRun; split <;> simp [to_settings]

@[simp] theorem settings_startIdle (s : State) (cmdGap : Bool) : settings (startIdle cmdGap s) = settings s := by
  unfold startIdle; (repeat' split) <;> simp [to_settings]

@[simp] theorem settings_act (s : State) (cmdGap dataGap : Bool) (c : Choice) : settings (act cmdGap dataGap s c) = settings s := by
  unfold act; (repeat' split) <;> simp [to_settings]

@[simp] theorem settings_closeRun (s : State) : settings (closeRun s) = settings s := by
  simp [closeRun, to_settings]

@[simp] theorem settings_linkChoose (s : State) : settings (linkChoose s) = settings s := by
  unfold linkChoose; (repeat' split) <;> simp [to_settings]

@[simp] theorem settings_linkError (s : State) (k : LinkErr) (c : LinkCmd) (tag : Byte) (serial addr : Option Word) (attempt : Nat) (o : ErrOutcome) : settings (linkError k c tag serial addr attempt o s) = settings s := by
  simp [linkError, to_settings]

@[simp] theorem settings_enterFault (s : State) : settings (enterFault s) = settings s := by
  simp [enterFault, to_settings]

@[simp] theorem settings_countRetry (s : State) : settings (countRetry s) = settings s := by
  simp [countRetry]

@[simp] theorem settings_loadInit (s : State) : settings (loadInit s) = settings s := by
  simp [loadInit, to_settings]

@[simp] theorem settings_initFromOff (s : State) : settings (initFromOff s) = settings s := by
  simp [initFromOff, to_settings]

@[simp] theorem settings_beginInit (s : State) : settings (beginInit s) = settings s := by
  unfold beginInit; dsimp only; (repeat' split) <;> simp [to_settings]

@[simp] theorem settings_initSucceeds (s : State) : settings (initSucceeds s) = settings s := by
  unfold initSucceeds; dsimp only; (repeat' split) <;> simp [to_settings]

@[simp] theorem settings_initFails (s : State) (k : LinkErr) (c : LinkCmd) : settings (initFails k c s) = settings s := by
  simp [initFails]

@[simp] theorem settings_initTransport (s : State) (k : LinkErr) (c : LinkCmd) : settings (initTransport k c s) = settings s := by
  unfold initTransport; dsimp only; (repeat' split) <;> simp [to_settings]

@[simp] theorem settings_keepIdentity (s : State) (i : Identity) : settings (keepIdentity i s) = settings s := by
  simp [keepIdentity, to_settings]

@[simp] theorem settings_identTaken (s : State) (i : Identity) : settings (identTaken i s) = settings s := by
  unfold identTaken; dsimp only; (repeat' split) <;> simp [to_settings]

@[simp] theorem settings_endReadback (s : State) (status : CmdStatus) (reason : Option Reason) : settings (endReadback status reason s) = settings s := by
  simp [endReadback, to_settings]

@[simp] theorem settings_commandFails (s : State) (c : LinkCmd) : settings (commandFails c s) = settings s := by
  unfold commandFails; split <;> simp [to_settings]

@[simp] theorem settings_retryOrFail (s : State) (k : LinkErr) (c : LinkCmd) : settings (retryOrFail k c s) = settings s := by
  unfold retryOrFail; dsimp only; (repeat' split) <;> simp [to_settings]

@[simp] theorem settings_transportError (s : State) (k : LinkErr) (c : LinkCmd) : settings (transportError k c s) = settings s := by
  unfold transportError; split <;> simp [to_settings]

@[simp] theorem settings_statusError (s : State) (k : LinkErr) (c : LinkCmd) (status : Word) : settings (statusError k c status s) = settings s := by
  unfold statusError; dsimp only; (repeat' split) <;> simp [to_settings]

@[simp] theorem settings_discardExchange (s : State) : settings (discardExchange s) = settings s := by
  simp [discardExchange, to_settings]

@[simp] theorem settings_inWindow (s : State) (c : LinkCmd) (f : State → State) (hf : ∀ s, settings (f s) = settings s) : settings (inWindow c f s) = settings s := by
  unfold inWindow; (repeat' split) <;> simp [to_settings, hf]

@[simp] theorem settings_shortResponse (s : State) (c : LinkCmd) (bits : BitVec 64) (taken : State → State) (hf : ∀ s, settings (taken s) = settings s) : settings (shortResponse c bits taken s) = settings s := by
  exact settings_inWindow s c _ fun s => by
    dsimp only; (repeat' split) <;> simp [to_settings, hf]

@[simp] theorem settings_awaitBusy (s : State) (c : LinkCmd) : settings (awaitBusy c s) = settings s := by
  simp [awaitBusy, to_settings]

@[simp] theorem settings_closeAfterFailure (s : State) : settings (closeAfterFailure s) = settings s := by
  simp [closeAfterFailure, to_settings]

@[simp] theorem settings_acceptToken (s : State) (serial addr : Word) : settings (acceptToken serial addr s) = settings s := by
  unfold acceptToken; dsimp only; (repeat' split) <;> simp [to_settings]

@[simp] theorem settings_blockFails (s : State) (k : LinkErr) (awaits : Bool) (serial addr : Word) : settings (blockFails k awaits serial addr s) = settings s := by
  unfold blockFails; dsimp only; (repeat' split) <;> simp [to_settings]

@[simp] theorem settings_inTokenWindow (s : State) (f : Word → Word → State → State) (hf : ∀ serial addr s, settings (f serial addr s) = settings s) : settings (inTokenWindow f s) = settings s := by
  unfold inTokenWindow; split <;> simp [to_settings, hf]

@[simp] theorem settings_takeToken (s : State) (t : Token) : settings (takeToken t s) = settings s := by
  unfold takeToken; split <;> simp [to_settings]

@[simp] theorem settings_tokenBusyEnds (s : State) : settings (tokenBusyEnds s) = settings s := by
  unfold tokenBusyEnds; (repeat' split) <;> simp [to_settings]

@[simp] theorem settings_releaseHeld (s : State) (gone : List Marker) : settings (releaseHeld gone s) = settings s := by
  unfold releaseHeld; (repeat' split) <;> simp [to_settings]

@[simp] theorem settings_makeDurable (s : State) : settings (makeDurable s) = settings s := by
  unfold makeDurable; dsimp only; (repeat' split) <;> simp [to_settings]

@[simp] theorem settings_moveBoundary (s : State) : settings (moveBoundary s) = settings s := by
  simp [moveBoundary, to_settings]

@[simp] theorem settings_commitSucceeds (s : State) : settings (commitSucceeds s) = settings s := by
  simp [commitSucceeds]

@[simp] theorem settings_commandBusyEnds (s : State) (c : LinkCmd) : settings (commandBusyEnds c s) = settings s := by
  unfold commandBusyEnds; split <;> simp [to_settings]

@[simp] theorem settings_tokenBusyTimeout (s : State) (serial addr : Word) : settings (tokenBusyTimeout serial addr s) = settings s := by
  simp [tokenBusyTimeout, to_settings]

@[simp] theorem settings_commandBusyTimeout (s : State) (c : LinkCmd) : settings (commandBusyTimeout c s) = settings s := by
  simp [commandBusyTimeout]

@[simp] theorem settings_abandonLink (s : State) : settings (abandonLink s) = settings s := by
  unfold abandonLink; dsimp only; (repeat' split) <;> simp [to_settings]

@[simp] theorem settings_abandonmentEnds (s : State) : settings (abandonmentEnds s) = settings s := by
  unfold abandonmentEnds; dsimp only; (repeat' split) <;> simp [to_settings]

@[simp] theorem settings_stallExpires (s : State) : settings (stallExpires s) = settings s := by
  unfold stallExpires; split <;> simp [to_settings]

@[simp] theorem settings_markerWaitExpires (s : State) : settings (markerWaitExpires s) = settings s := by
  unfold markerWaitExpires; split <;> simp [to_settings]

@[simp] theorem settings_fenceExpires (s : State) : settings (fenceExpires s) = settings s := by
  unfold fenceExpires; split <;> simp [to_settings]

@[simp] theorem settings_admitVoid (s : State) : settings (admitVoid s) = settings s := by
  unfold admitVoid; (repeat' split) <;> simp [to_settings]

@[simp] theorem settings_admitData (s : State) : settings (admitData s) = settings s := by
  unfold admitData; (repeat' split) <;> simp [to_settings]

@[simp] theorem settings_admitMark (s : State) : settings (admitMark s) = settings s := by
  unfold admitMark; (repeat' split) <;> simp [to_settings]

@[simp] theorem settings_admitFinal (s : State) : settings (admitFinal s) = settings s := by
  unfold admitFinal; split <;> simp [to_settings]

@[simp] theorem settings_pinRequest (s : State) : settings (pinRequest s) = settings s := by
  unfold pinRequest; (repeat' split) <;> simp [to_settings]

@[simp] theorem settings_framerCopies (s : State) : settings (framerCopies s) = settings s := by
  simp [framerCopies]

@[simp] theorem settings_sealTimerExpires (s : State) : settings (sealTimerExpires s) = settings s := by
  unfold sealTimerExpires; split <;> simp [to_settings]

@[simp] theorem settings_idlePeriodEnds (s : State) : settings (idlePeriodEnds s) = settings s := by
  unfold idlePeriodEnds; split <;> simp [to_settings]

@[simp] theorem settings_settleEnds (s : State) : settings (settleEnds s) = settings s := by
  unfold settleEnds; (repeat' split) <;> simp [to_settings]

@[simp] theorem settings_frameEnds (s : State) (c : LinkCmd) : settings (frameEnds c s) = settings s := by
  unfold frameEnds; split <;> simp [to_settings]

@[simp] theorem settings_commandFrameEnds (s : State) : settings (commandFrameEnds s) = settings s := by
  unfold commandFrameEnds; split <;> simp [to_settings]

@[simp] theorem settings_commandGapEnds (s : State) : settings (commandGapEnds s) = settings s := by
  unfold commandGapEnds; split <;> simp [to_settings]

@[simp] theorem settings_windowTimeout (s : State) : settings (windowTimeout s) = settings s := by
  unfold windowTimeout; split <;> simp [to_settings]

@[simp] theorem settings_identResponse (s : State) (bits : BitVec 160) : settings (identResponse bits s) = settings s := by
  exact settings_inWindow s .ident _ fun s => by split <;> simp

@[simp] theorem settings_pollEnds (s : State) : settings (pollEnds s) = settings s := by
  unfold pollEnds; split <;> simp [to_settings]

@[simp] theorem settings_initLimit (s : State) : settings (initLimit s) = settings s := by
  unfold initLimit; (repeat' split) <;> simp [to_settings]

@[simp] theorem settings_setupTaken (s : State) : settings (setupTaken s) = settings s := by
  simp [setupTaken, to_settings]

@[simp] theorem settings_writeRunTaken (s : State) : settings (writeRunTaken s) = settings s := by
  simp [writeRunTaken, to_settings]

@[simp] theorem settings_endRunTaken (s : State) : settings (endRunTaken s) = settings s := by
  simp [endRunTaken, to_settings]

@[simp] theorem settings_readOneTaken (s : State) : settings (readOneTaken s) = settings s := by
  simp [readOneTaken, to_settings]

@[simp] theorem settings_dataGapEnds (s : State) : settings (dataGapEnds s) = settings s := by
  unfold dataGapEnds; (repeat' split) <;> simp [to_settings]

@[simp] theorem settings_blockOutEnds (s : State) : settings (blockOutEnds s) = settings s := by
  unfold blockOutEnds; split <;> simp [to_settings]

@[simp] theorem settings_busyEnds (s : State) : settings (busyEnds s) = settings s := by
  unfold busyEnds; split <;> simp [to_settings]

@[simp] theorem settings_busyExpires (s : State) : settings (busyExpires s) = settings s := by
  unfold busyExpires; split <;> simp [to_settings]

@[simp] theorem settings_idleExpires (s : State) : settings (idleExpires s) = settings s := by
  unfold idleExpires; split <;> simp [to_settings]

@[simp] theorem settings_readWindowExpires (s : State) : settings (readWindowExpires s) = settings s := by
  unfold readWindowExpires; split <;> simp [to_settings]

@[simp] theorem settings_startCompares (s : State) : settings (startCompares s) = settings s := by
  simp [startCompares]

@[simp] theorem settings_startTaken (s : State) (p : Placement) (generation : Half) (ch : List Extent) : settings (startTaken p generation ch s) = settings s := by
  simp [startTaken, to_settings]

@[simp] theorem settings_startOwn (s : State) (placement : BitVec 2) (generation : Half) : settings (startOwn placement generation s) = settings s := by
  unfold startOwn; (repeat' split) <;> simp [to_settings]

@[simp] theorem settings_startCommand (s : State) (placement : BitVec 2) (generation : Half) : settings (startCommand placement generation s) = settings s := by
  simp [startCommand]

@[simp] theorem settings_stopTaken (s : State) : settings (stopTaken s) = settings s := by
  unfold stopTaken; dsimp only; (repeat' split) <;> simp [to_settings]

@[simp] theorem settings_stopOwn (s : State) : settings (stopOwn s) = settings s := by
  unfold stopOwn; split <;> simp [to_settings]

@[simp] theorem settings_stopCommand (s : State) : settings (stopCommand s) = settings s := by
  simp [stopCommand]

@[simp] theorem settings_haltPath (s : State) : settings (haltPath s) = settings s := by
  simp [haltPath, to_settings]

@[simp] theorem settings_haltMarkers (s : State) : settings (haltMarkers s) = settings s := by
  simp [haltMarkers, to_settings]

@[simp] theorem settings_haltSteps (s : State) (code : BitVec 4) : settings (haltSteps code s) = settings s := by
  simp [haltSteps, to_settings]

@[simp] theorem settings_haltCommand (s : State) : settings (haltCommand s) = settings s := by
  simp [haltCommand]

@[simp] theorem settings_softResetCommand (s : State) : settings (softResetCommand s) = settings s := by
  simp [softResetCommand]

@[simp] theorem settings_pauseOwn (s : State) : settings (pauseOwn s) = settings s := by
  unfold pauseOwn; split <;> simp [to_settings]

@[simp] theorem settings_pauseCommand (s : State) : settings (pauseCommand s) = settings s := by
  simp [pauseCommand]

@[simp] theorem settings_resumeTaken (s : State) : settings (resumeTaken s) = settings s := by
  simp [resumeTaken, to_settings]

@[simp] theorem settings_resumeOwn (s : State) : settings (resumeOwn s) = settings s := by
  unfold resumeOwn; split <;> simp [to_settings]

@[simp] theorem settings_resumeCommand (s : State) : settings (resumeCommand s) = settings s := by
  simp [resumeCommand]

@[simp] theorem settings_markOwn (s : State) (tag : Half) : settings (markOwn tag s) = settings s := by
  unfold markOwn; (repeat' split) <;> simp [to_settings]

@[simp] theorem settings_markCommand (s : State) (tag : Half) : settings (markCommand tag s) = settings s := by
  simp [markCommand]

@[simp] theorem settings_reclaimBlocks (s : State) (n : Nat) : settings (reclaimBlocks n s) = settings s := by
  simp [reclaimBlocks, to_settings]

@[simp] theorem settings_reclaimOwn (s : State) : settings (reclaimOwn s) = settings s := by
  unfold reclaimOwn; dsimp only; (repeat' split) <;> simp [to_settings]

@[simp] theorem settings_reclaimCommand (s : State) : settings (reclaimCommand s) = settings s := by
  simp [reclaimCommand]

@[simp] theorem settings_readbackOwn (s : State) : settings (readbackOwn s) = settings s := by
  unfold readbackOwn; dsimp only; (repeat' split) <;> simp [to_settings]

@[simp] theorem settings_readbackCommand (s : State) : settings (readbackCommand s) = settings s := by
  simp [readbackCommand]

@[simp] theorem settings_recoverOwn (s : State) : settings (recoverOwn s) = settings s := by
  unfold recoverOwn; split <;> simp [to_settings]

@[simp] theorem settings_recoverCommand (s : State) : settings (recoverCommand s) = settings s := by
  simp [recoverCommand]

@[simp] theorem settings_badCodeCommand (s : State) (code : BitVec 4) : settings (badCodeCommand code s) = settings s := by
  simp [badCodeCommand]

@[simp] theorem settings_commandWord (s : State) (v : Word) : settings (commandWord v s) = settings s := by
  unfold commandWord; dsimp only; (repeat' split) <;> simp [to_settings]

@[simp] theorem settings_badFrame (s : State) : settings (badFrame s) = settings s := by
  simp [badFrame]

end Sys2Proof.Machine
end

