-- ==== Sys2Proof/Laws/Order.lean ====
section
/-! SUPPORT. The order of transactions along the path of a write: a write in hand is either forwarded or held, once. -/

namespace Sys2Proof.Machine

/-- The write counts of a record of the ports agree with the RTQ's (R18). -/
def CountsOf (fc ac : Word) (downstream : List Txn) (upstream : List Response) : Prop :=
  fc = BitVec.ofNat 32 (downstream.countP fun t => match t with
    | .write _ => true
    | .read _ => false) ∧
  ac = BitVec.ofNat 32 (upstream.countP fun r => match r with
    | .write _ _ => true
    | .read _ _ _ => false)

/-- Order and counts, with nothing in hand. -/
def Settled (s : State) : Prop :=
  s.ports.taken = s.ports.downstream ++ heldTxn s ∧ (s.pornLow = true → s.held = none) ∧
    CountsOf s.rtq.forwardCount s.rtq.answerCount s.ports.downstream s.ports.upstream

/-- Order and counts while a taken write is in hand: it is the only one taken that has not left. -/
def InHand (w : WriteTxn) (s : State) : Prop :=
  s.ports.taken = s.ports.downstream ++ [.write w] ∧ s.pornLow = false ∧
    CountsOf s.rtq.forwardCount s.rtq.answerCount s.ports.downstream s.ports.upstream

theorem settled_iff (s : State) : Settled s ↔ inOrder s = true ∧ countsAgree s = true := by
  unfold Settled inOrder countsAgree CountsOf writesForwarded writesAnswered
  simp only [Bool.and_eq_true, Bool.or_eq_true, Bool.not_eq_true', beq_iff_eq, Option.isNone_iff_eq_none]
  cases s.pornLow <;> simp <;> tauto

/-- Order and counts depend on the settings and the path alone. -/
theorem settled_congr {s t : State} (h : settings t = settings s) (p : path t = path s) (g : Settled s) : Settled t := by
  simp only [settings, path, Settings.mk.injEq, Path.mk.injEq] at h p
  obtain ⟨h1, -, -, -, -, -, -, -, -, -, h2, h3, -⟩ := h
  obtain ⟨p1, p2, p3⟩ := p
  simpa only [Settled, heldTxn, h1, h2, h3, p1, p2, p3] using g

theorem inHand_congr {w : WriteTxn} {s t : State} (h : settings t = settings s) (p : path t = path s) (g : InHand w s) :
    InHand w t := by
  simp only [settings, path, Settings.mk.injEq, Path.mk.injEq] at h p
  obtain ⟨h1, -, -, -, -, -, -, -, -, -, h2, h3, -⟩ := h
  obtain ⟨p1, p2, p3⟩ := p
  simpa only [InHand, h1, h2, h3, p2, p3] using g

/-- A held write is in hand. -/
theorem inHand_of_held {s : State} {h : Held} (g : Settled s) (e : s.held = some h) : InHand h.write s := by
  obtain ⟨a, b, c⟩ := g
  refine ⟨by simpa [heldTxn, e] using a, ?_, c⟩
  cases hp : s.pornLow
  · rfl
  · rw [b hp] at e; cases e

/-- Forwarding the write in hand settles order and counts. -/
theorem finishWrite_settled {w : WriteTxn} {s : State} (g : InHand w s) : Settled (finishWrite w s) := by
  obtain ⟨a, b, c, d⟩ := g
  refine ⟨by simp [finishWrite, forwardWrite, heldTxn, a], by simp [finishWrite, forwardWrite], ?_, ?_⟩
  · simp [finishWrite, forwardWrite, c, List.countP_append, List.countP_nil, BitVec.ofNat_add]
  · simpa [finishWrite, forwardWrite] using d

/-- Holding the write in hand settles order and counts. -/
theorem holdWrite_settled {w : WriteTxn} {s : State} (h : Hold) (n : Nat) (g : InHand w s) :
    Settled (holdWrite w h n s) := by
  obtain ⟨a, b, c⟩ := g
  exact ⟨by simp [holdWrite, heldTxn, a], by simp [holdWrite, b], by simpa [holdWrite] using c⟩

/-- Emptying the slot keeps the write in hand. -/
theorem inHand_release {w : WriteTxn} {s : State} (g : InHand w s) : InHand w { s with held := none } := g

theorem takeEntry_inHand {w : WriteTxn} {s : State} (v : WriteTxn) (seq : Word) (b : Bool) (g : InHand w s) :
    InHand w (takeEntry v seq b s) := g

theorem afterMark_settled {w : WriteTxn} {s : State} (t : Fin 4) (e : Word) (g : InHand w s) :
    Settled (afterMark w t e s) := by
  unfold afterMark
  split
  · exact holdWrite_settled _ _ g
  · exact finishWrite_settled g

theorem admitTriggerMark_settled {w : WriteTxn} {s : State} (t : Fin 4) (g : InHand w s) :
    Settled (admitTriggerMark w t s) :=
  afterMark_settled _ _ (inHand_congr (by simp) (by simp) g)

theorem beginMarkerWait_settled {w : WriteTxn} {s : State} (r : Option (Fin 16)) (t : Fin 4) (g : InHand w s) :
    Settled (beginMarkerWait w r t s) := by
  unfold beginMarkerWait
  split_ifs
  · exact finishWrite_settled (inHand_congr (by simp) (by simp) g)
  · exact holdWrite_settled _ _ g
  · exact admitTriggerMark_settled _ g
  · exact holdWrite_settled _ _ g

theorem afterData_settled {w : WriteTxn} {s : State} (r : Fin 16) (t : Option (Fin 4)) (g : InHand w s) :
    Settled (afterData w r t s) := by
  unfold afterData
  split
  · exact finishWrite_settled g
  · exact beginMarkerWait_settled _ _ g

theorem trackWrite_settled {w : WriteTxn} {s : State} (q : Word) (r : Fin 16) (t : Option (Fin 4)) (g : InHand w s) :
    Settled (trackWrite w q r t s) := by
  unfold trackWrite
  split_ifs
  · exact afterData_settled _ _ (takeEntry_inHand _ _ _ g)
  · exact holdWrite_settled _ _ g

theorem offerData_settled {w : WriteTxn} {s : State} (r : Fin 16) (t : Option (Fin 4)) (g : InHand w s) :
    Settled (offerData w r t s) := by
  unfold offerData
  dsimp only
  split
  · exact trackWrite_settled _ _ _ (inHand_congr (by simp) (by simp) g)
  · split
    · exact holdWrite_settled _ _ g
    · exact afterData_settled _ _ (inHand_congr (by simp) (by simp) g)

theorem captureWrite_settled {w : WriteTxn} {s : State} (r : Fin 16) (t : Option (Fin 4)) (g : InHand w s) :
    Settled (captureWrite w r t s) := by
  unfold captureWrite
  repeat' split
  · exact trackWrite_settled _ _ _ (inHand_congr (by simp) (by simp) g)
  · exact offerData_settled _ _ g
  · exact offerData_settled _ _ g

/-- Forwarding with the slot empty settles order and counts. -/
theorem forwardWrite_settled {w : WriteTxn} {s : State} (e : s.held = none) (g : InHand w s) :
    Settled (forwardWrite w s) := by
  have : forwardWrite w s = finishWrite w s := by rw [finishWrite, ← e]
  exact this ▸ finishWrite_settled g

theorem classifyWrite_settled {w : WriteTxn} {s : State} (e : s.held = none) (g : InHand w s) :
    Settled (classifyWrite w s) := by
  unfold classifyWrite
  repeat' split
  · exact forwardWrite_settled (by simpa using e) (inHand_congr (by simp) (by simp) g)
  · exact captureWrite_settled _ _ g
  · exact beginMarkerWait_settled _ _ g
  · exact forwardWrite_settled e g
  · exact forwardWrite_settled e g

theorem forwardHeld_settled {s : State} (g : Settled s) : Settled (forwardHeld s) ∧ (forwardHeld s).held = none := by
  unfold forwardHeld
  split
  · exact ⟨g, ‹_›⟩
  · exact ⟨finishWrite_settled (inHand_of_held g ‹_›), by simp [finishWrite, forwardWrite]⟩

theorem settleHeldForStop_settled {s : State} (g : Settled s) : Settled (settleHeldForStop s) := by
  unfold settleHeldForStop
  split
  · exact g
  · have k := inHand_of_held g ‹_›
    split
    · exact finishWrite_settled (inHand_congr (by simp) (by simp) k)
    · obtain ⟨a, b, c⟩ := k
      exact ⟨by simp [heldTxn, a], by simp [b], c⟩
    · exact finishWrite_settled (inHand_congr (by simp) (by simp) k)
    · exact finishWrite_settled (inHand_congr (by simp) (by simp) k)
    · exact g

theorem releaseTracking_settled {s : State} (g : Settled s) : Settled (releaseTracking s) := by
  unfold releaseTracking
  split
  · have k := inHand_of_held g ‹_›
    split
    · split
      · dsimp only
        split
        · exact finishWrite_settled (inHand_congr (settings_loseMark _) (path_loseMark _) (takeEntry_inHand _ _ _ k))
        · exact finishWrite_settled (takeEntry_inHand _ _ _ k)
      · exact trackWrite_settled _ _ _ (inHand_release k)
    all_goals exact g
  · exact g

/-- An ERROR response changes neither the slot nor the counts. -/
theorem errorResponse_settled {s : State} (e : TrackEntry) (g : Settled s) : Settled (errorResponse e s) := by
  unfold errorResponse lateVoid
  repeat' split
  · exact g
  · exact settled_congr (by simp) (by simp) g
  · exact settled_congr (by simp) (by simp) g

theorem matchResponse_settled {s : State} (a : WriteAnswer) (g : Settled s) : Settled (matchResponse a s) := by
  unfold matchResponse
  split
  · split
    · cases a
      · exact releaseTracking_settled (by exact g)
      · exact releaseTracking_settled (errorResponse_settled _ (by exact g))
    · exact g
  · exact g

theorem releaseHeld_settled {s : State} (gone : List Marker) (g : Settled s) : Settled (releaseHeld gone s) := by
  unfold releaseHeld
  split
  · exact g
  · have k := inHand_of_held g ‹_›
    split
    · exact finishWrite_settled k
    · split
      · split
        · exact g
        · obtain ⟨a, b, c⟩ := k
          exact ⟨by simp [heldTxn, a], by simp [b], c⟩
      all_goals exact g

/-- Setting the ended flags leaves order and counts. -/
theorem endTracking_settled {s : State} (g : Settled s) : Settled (endTracking s) := g

theorem stopCompletes_settled {s : State} (g : Settled s) : Settled (stopCompletes s) := by
  unfold stopCompletes
  dsimp only
  split
  · exact endTracking_settled (settled_congr (by simp [to_settings]) (by simp [to_path]) g)
  · exact endTracking_settled g

theorem makeDurable_settled {s : State} (g : Settled s) : Settled (makeDurable s) := by
  unfold makeDurable
  dsimp only
  split
  · exact g
  · have k : ∀ m : Marker, Settled (releaseHeld (durableMarkers s) (raise .epochDurable
        { s with
          markers.entries := stayingMarkers s
          markers.commitEpoch := none
          markers.durableEpoch := m.epoch
          markers.durableTag := m.tag })) := fun m =>
      releaseHeld_settled _ (settled_congr (by simp [to_settings]) (by simp [to_path]) g)
    split
    · exact stopCompletes_settled (k _)
    · exact k _

theorem commitSucceeds_settled {s : State} (g : Settled s) : Settled (commitSucceeds s) := by
  unfold commitSucceeds
  refine settled_congr (settings_linkChoose _) (path_linkChoose _) ?_
  refine settled_congr (settings_restIn _ _) (path_restIn _ _) (makeDurable_settled ?_)
  exact settled_congr (by simp) (by simp) g

theorem commandBusyEnds_settled {s : State} (c : LinkCmd) (g : Settled s) : Settled (commandBusyEnds c s) := by
  cases c
  case commit => exact commitSucceeds_settled g
  all_goals exact settled_congr (by simp [commandBusyEnds, to_settings]) (by simp [commandBusyEnds, to_path]) g

theorem busyEnds_settled {s : State} (g : Settled s) : Settled (busyEnds s) := by
  unfold busyEnds
  split
  · exact settled_congr (by simp) (by simp) g
  · exact commandBusyEnds_settled _ g
  · exact g

theorem stallExpires_settled {s : State} (g : Settled s) : Settled (stallExpires s) := by
  unfold stallExpires
  split
  · have k := inHand_release (inHand_of_held g ‹_›)
    exact afterData_settled _ _ (inHand_congr (by simp) (by simp) k)
  · exact g

theorem markerWaitExpires_settled {s : State} (g : Settled s) : Settled (markerWaitExpires s) := by
  unfold markerWaitExpires
  split
  · exact finishWrite_settled (inHand_congr (settings_loseMark _) (path_loseMark _) (inHand_of_held g ‹_›))
  · exact finishWrite_settled (inHand_congr (settings_loseMark _) (path_loseMark _) (inHand_of_held g ‹_›))
  · exact g

theorem fenceExpires_settled {s : State} (g : Settled s) : Settled (fenceExpires s) := by
  unfold fenceExpires
  split
  · exact finishWrite_settled (inHand_congr (settings_raise _ _) (path_raise _ _) (inHand_of_held g ‹_›))
  · exact g

theorem admitVoid_settled {s : State} (g : Settled s) : Settled (admitVoid s) := by
  unfold admitVoid
  repeat' split
  · exact g
  · rename_i v rest _ _
    have k : Settled { s with rtq.voids := rest } := g
    exact settled_congr (by simp) (by simp) k
  · exact g

theorem admitData_settled {s : State} (g : Settled s) : Settled (admitData s) := by
  unfold admitData
  repeat' split
  · have k := inHand_release (inHand_of_held g ‹_›)
    exact trackWrite_settled _ _ _ (inHand_congr (by simp) (by simp) k)
  · exact g
  · exact g

theorem admitMark_settled {s : State} (g : Settled s) : Settled (admitMark s) := by
  unfold admitMark
  repeat' split
  · exact admitTriggerMark_settled _ (inHand_of_held g ‹_›)
  · exact g
  · exact g

theorem stopTaken_settled {s : State} (g : Settled s) : Settled (stopTaken s) := by
  unfold stopTaken
  dsimp only
  refine settled_congr (settings_linkChoose _) (path_linkChoose _) ?_
  refine settled_congr (settings_requestPauseSeal _) (path_requestPauseSeal _) (settleHeldForStop_settled ?_)
  split
  · exact settled_congr (by simp [to_settings]) (by simp [to_path]) g
  · exact settled_congr (by simp [to_settings]) (by simp [to_path]) g

theorem stopCommand_settled {s : State} (g : Settled s) : Settled (stopCommand s) := by
  have k : Settled (nextNumber s) := settled_congr (by simp) (by simp) g
  unfold stopCommand takeCommand
  dsimp only
  split
  · exact settled_congr (by simp) (by simp) k
  · unfold stopOwn
    split
    · exact stopTaken_settled k
    · exact stopTaken_settled k
    all_goals exact settled_congr (by simp) (by simp) k

theorem haltPath_settled {s : State} (g : Settled s) : Settled (haltPath s) := endTracking_settled (forwardHeld_settled g).1

theorem haltSteps_settled {s : State} (code : BitVec 4) (g : Settled s) : Settled (haltSteps code s) := by
  unfold haltSteps
  dsimp only
  refine settled_congr (settings_raise _ _) (path_raise _ _) ?_
  refine settled_congr (s := abandonLink _) rfl rfl ?_
  refine settled_congr (settings_abandonLink _) (path_abandonLink _) ?_
  refine settled_congr (settings_haltMarkers _) (path_haltMarkers _) (haltPath_settled ?_)
  exact settled_congr (by simp) (by simp) g

theorem softResetCommand_settled {s : State} (g : Settled s) : Settled (softResetCommand s) :=
  haltSteps_settled _ (settled_congr (by simp) (by simp) g)

theorem commandWord_settled {s : State} (v : Word) (g : Settled s) : Settled (commandWord v s) := by
  unfold commandWord
  dsimp only
  split_ifs
  · exact settled_congr (by simp) (by simp) g
  · exact stopCommand_settled g
  · exact haltSteps_settled _ g
  · exact settled_congr (by simp) (by simp) g
  · exact settled_congr (by simp) (by simp) g
  · exact settled_congr (by simp) (by simp) g
  · exact settled_congr (by simp) (by simp) g
  · exact settled_congr (by simp) (by simp) g
  · exact settled_congr (by simp) (by simp) g
  · exact softResetCommand_settled g
  · exact settled_congr (by simp) (by simp) g

theorem openWrite_settled (a : Half) (v : Word) {s : State} (g : Settled s) :
    Settled (openWrite a v s) := by
  unfold openWrite
  split_ifs <;> exact g

theorem lockedWrite_settled (a : Half) (v : Word) {s : State} (g : Settled s) :
    Settled (lockedWrite a v s) := by
  unfold lockedWrite setLocked
  split_ifs <;> exact g

theorem writeFrame_settled (a : Half) (v : Word) {s : State} (g : Settled s) :
    Settled (writeFrame a v s) := by
  unfold writeFrame
  split
  · exact g
  · exact openWrite_settled _ _ g
  · exact lockedWrite_settled _ _ g
  · exact g
  · exact g
  · exact g
  · exact commandWord_settled _ g

theorem mgmtFrame_settled (b : List Bool) {s : State} (g : Settled s) :
    Settled (mgmtFrame b s) := by
  have k : Settled (noteShifted b s) := settled_congr (by simp) (by simp) g
  unfold mgmtFrame
  dsimp only
  split
  · exact writeFrame_settled _ _ k
  · exact k
  · exact settled_congr (by simp) (by simp) k

end Sys2Proof.Machine
end

