-- ==== Sys2Proof/Laws/PerInstr.lean ====
section
/-! SUPPORT. The per-command families: for every constructor of Instr, what a well-formed command carries. -/

open Sys2Proof Sys2Proof.Machine

/-- A well-formed command carries a transaction of a length the memory ports carry, or none; and a command that comes through
the management port carries none. -/
def Sys2Proof.Laws.Carried.Statement (i : Instr) : Prop :=
  (i.wellFormed = true → transferOk i = true) ∧ (managementRow i = true → transferLengthOf i = none)

theorem Sys2Proof.Laws.Carried.pornFall : Sys2Proof.Laws.Carried.Statement .pornFall :=
  ⟨fun _ => rfl, fun _ => rfl⟩

theorem Sys2Proof.Laws.Carried.pornRise (csnLow : Bool) : Sys2Proof.Laws.Carried.Statement (.pornRise csnLow) :=
  ⟨fun _ => rfl, fun _ => rfl⟩

theorem Sys2Proof.Laws.Carried.upstreamWriteTaken (w : WriteTxn) : Sys2Proof.Laws.Carried.Statement (.upstreamWriteTaken w) :=
  ⟨fun h => h, fun h => nomatch h⟩

theorem Sys2Proof.Laws.Carried.upstreamReadTaken (r : ReadTxn) : Sys2Proof.Laws.Carried.Statement (.upstreamReadTaken r) :=
  ⟨fun h => h, fun h => nomatch h⟩

theorem Sys2Proof.Laws.Carried.downstreamWriteResponse (id : Byte) (answer : WriteAnswer) : Sys2Proof.Laws.Carried.Statement (.downstreamWriteResponse id answer) :=
  ⟨fun _ => rfl, fun _ => rfl⟩

theorem Sys2Proof.Laws.Carried.downstreamReadResponse (id : Byte) (data : List Byte) (status : Nat) : Sys2Proof.Laws.Carried.Statement (.downstreamReadResponse id data status) :=
  ⟨fun _ => rfl, fun _ => rfl⟩

theorem Sys2Proof.Laws.Carried.stallTimeout : Sys2Proof.Laws.Carried.Statement .stallTimeout :=
  ⟨fun _ => rfl, fun _ => rfl⟩

theorem Sys2Proof.Laws.Carried.markerWaitExpiry : Sys2Proof.Laws.Carried.Statement .markerWaitExpiry :=
  ⟨fun _ => rfl, fun _ => rfl⟩

theorem Sys2Proof.Laws.Carried.fenceLimitExpiry : Sys2Proof.Laws.Carried.Statement .fenceLimitExpiry :=
  ⟨fun _ => rfl, fun _ => rfl⟩

theorem Sys2Proof.Laws.Carried.admitPendingVoid : Sys2Proof.Laws.Carried.Statement .admitPendingVoid :=
  ⟨fun _ => rfl, fun _ => rfl⟩

theorem Sys2Proof.Laws.Carried.admitHeldData : Sys2Proof.Laws.Carried.Statement .admitHeldData :=
  ⟨fun _ => rfl, fun _ => rfl⟩

theorem Sys2Proof.Laws.Carried.admitHeldMark : Sys2Proof.Laws.Carried.Statement .admitHeldMark :=
  ⟨fun _ => rfl, fun _ => rfl⟩

theorem Sys2Proof.Laws.Carried.admitFinalMark : Sys2Proof.Laws.Carried.Statement .admitFinalMark :=
  ⟨fun _ => rfl, fun _ => rfl⟩

theorem Sys2Proof.Laws.Carried.marknRequest : Sys2Proof.Laws.Carried.Statement .marknRequest :=
  ⟨fun _ => rfl, fun _ => rfl⟩

theorem Sys2Proof.Laws.Carried.framerCopy : Sys2Proof.Laws.Carried.Statement .framerCopy :=
  ⟨fun _ => rfl, fun _ => rfl⟩

theorem Sys2Proof.Laws.Carried.sealTimerExpiry : Sys2Proof.Laws.Carried.Statement .sealTimerExpiry :=
  ⟨fun _ => rfl, fun _ => rfl⟩

theorem Sys2Proof.Laws.Carried.linkIdlePeriodEnd : Sys2Proof.Laws.Carried.Statement .linkIdlePeriodEnd :=
  ⟨fun _ => rfl, fun _ => rfl⟩

theorem Sys2Proof.Laws.Carried.resetSettleEnd : Sys2Proof.Laws.Carried.Statement .resetSettleEnd :=
  ⟨fun _ => rfl, fun _ => rfl⟩

theorem Sys2Proof.Laws.Carried.commandFrameEnd : Sys2Proof.Laws.Carried.Statement .commandFrameEnd :=
  ⟨fun _ => rfl, fun _ => rfl⟩

theorem Sys2Proof.Laws.Carried.commandGapEnd : Sys2Proof.Laws.Carried.Statement .commandGapEnd :=
  ⟨fun _ => rfl, fun _ => rfl⟩

theorem Sys2Proof.Laws.Carried.respTimeout : Sys2Proof.Laws.Carried.Statement .respTimeout :=
  ⟨fun _ => rfl, fun _ => rfl⟩

theorem Sys2Proof.Laws.Carried.identResponse (bits : BitVec 160) : Sys2Proof.Laws.Carried.Statement (.identResponse bits) :=
  ⟨fun _ => rfl, fun _ => rfl⟩

theorem Sys2Proof.Laws.Carried.pollIntervalEnd : Sys2Proof.Laws.Carried.Statement .pollIntervalEnd :=
  ⟨fun _ => rfl, fun _ => rfl⟩

theorem Sys2Proof.Laws.Carried.initTimeout : Sys2Proof.Laws.Carried.Statement .initTimeout :=
  ⟨fun _ => rfl, fun _ => rfl⟩

theorem Sys2Proof.Laws.Carried.setupResponse (bits : BitVec 64) : Sys2Proof.Laws.Carried.Statement (.setupResponse bits) :=
  ⟨fun _ => rfl, fun _ => rfl⟩

theorem Sys2Proof.Laws.Carried.statusResponse (bits : BitVec 64) : Sys2Proof.Laws.Carried.Statement (.statusResponse bits) :=
  ⟨fun _ => rfl, fun _ => rfl⟩

theorem Sys2Proof.Laws.Carried.writeRunResponse (bits : BitVec 64) : Sys2Proof.Laws.Carried.Statement (.writeRunResponse bits) :=
  ⟨fun _ => rfl, fun _ => rfl⟩

theorem Sys2Proof.Laws.Carried.endRunResponse (bits : BitVec 64) : Sys2Proof.Laws.Carried.Statement (.endRunResponse bits) :=
  ⟨fun _ => rfl, fun _ => rfl⟩

theorem Sys2Proof.Laws.Carried.commitResponse (bits : BitVec 64) : Sys2Proof.Laws.Carried.Statement (.commitResponse bits) :=
  ⟨fun _ => rfl, fun _ => rfl⟩

theorem Sys2Proof.Laws.Carried.readOneResponse (bits : BitVec 64) : Sys2Proof.Laws.Carried.Statement (.readOneResponse bits) :=
  ⟨fun _ => rfl, fun _ => rfl⟩

theorem Sys2Proof.Laws.Carried.dataGapEnd : Sys2Proof.Laws.Carried.Statement .dataGapEnd :=
  ⟨fun _ => rfl, fun _ => rfl⟩

theorem Sys2Proof.Laws.Carried.blockOutEnd : Sys2Proof.Laws.Carried.Statement .blockOutEnd :=
  ⟨fun _ => rfl, fun _ => rfl⟩

theorem Sys2Proof.Laws.Carried.accept : Sys2Proof.Laws.Carried.Statement .accept :=
  ⟨fun _ => rfl, fun _ => rfl⟩

theorem Sys2Proof.Laws.Carried.crcBad : Sys2Proof.Laws.Carried.Statement .crcBad :=
  ⟨fun _ => rfl, fun _ => rfl⟩

theorem Sys2Proof.Laws.Carried.writeFail : Sys2Proof.Laws.Carried.Statement .writeFail :=
  ⟨fun _ => rfl, fun _ => rfl⟩

theorem Sys2Proof.Laws.Carried.range : Sys2Proof.Laws.Carried.Statement .range :=
  ⟨fun _ => rfl, fun _ => rfl⟩

theorem Sys2Proof.Laws.Carried.tokenInvalid (code : BitVec 4) (endBit : Bool) : Sys2Proof.Laws.Carried.Statement (.tokenInvalid code endBit) :=
  ⟨fun _ => rfl, fun _ => rfl⟩

theorem Sys2Proof.Laws.Carried.tokenTimeout : Sys2Proof.Laws.Carried.Statement .tokenTimeout :=
  ⟨fun _ => rfl, fun _ => rfl⟩

theorem Sys2Proof.Laws.Carried.busyEnd : Sys2Proof.Laws.Carried.Statement .busyEnd :=
  ⟨fun _ => rfl, fun _ => rfl⟩

theorem Sys2Proof.Laws.Carried.busyTimeout : Sys2Proof.Laws.Carried.Statement .busyTimeout :=
  ⟨fun _ => rfl, fun _ => rfl⟩

theorem Sys2Proof.Laws.Carried.runIdleExpiry : Sys2Proof.Laws.Carried.Statement .runIdleExpiry :=
  ⟨fun _ => rfl, fun _ => rfl⟩

theorem Sys2Proof.Laws.Carried.readBlockReceived (b : BlockIn) : Sys2Proof.Laws.Carried.Statement (.readBlockReceived b) :=
  ⟨fun _ => rfl, fun _ => rfl⟩

theorem Sys2Proof.Laws.Carried.readTimeout : Sys2Proof.Laws.Carried.Statement .readTimeout :=
  ⟨fun _ => rfl, fun _ => rfl⟩

theorem Sys2Proof.Laws.Carried.mgmtBadFrame (bits : List Bool) : Sys2Proof.Laws.Carried.Statement (.mgmtBadFrame bits) :=
  ⟨fun _ => rfl, fun _ => rfl⟩

theorem Sys2Proof.Laws.Carried.start (placement : BitVec 2) (generation : Half) : Sys2Proof.Laws.Carried.Statement (.start placement generation) :=
  ⟨fun _ => rfl, fun _ => rfl⟩

theorem Sys2Proof.Laws.Carried.stop : Sys2Proof.Laws.Carried.Statement .stop :=
  ⟨fun _ => rfl, fun _ => rfl⟩

theorem Sys2Proof.Laws.Carried.halt : Sys2Proof.Laws.Carried.Statement .halt :=
  ⟨fun _ => rfl, fun _ => rfl⟩

theorem Sys2Proof.Laws.Carried.softReset : Sys2Proof.Laws.Carried.Statement .softReset :=
  ⟨fun _ => rfl, fun _ => rfl⟩

theorem Sys2Proof.Laws.Carried.pause : Sys2Proof.Laws.Carried.Statement .pause :=
  ⟨fun _ => rfl, fun _ => rfl⟩

theorem Sys2Proof.Laws.Carried.resume : Sys2Proof.Laws.Carried.Statement .resume :=
  ⟨fun _ => rfl, fun _ => rfl⟩

theorem Sys2Proof.Laws.Carried.mark (tag : Half) : Sys2Proof.Laws.Carried.Statement (.mark tag) :=
  ⟨fun _ => rfl, fun _ => rfl⟩

theorem Sys2Proof.Laws.Carried.reclaim : Sys2Proof.Laws.Carried.Statement .reclaim :=
  ⟨fun _ => rfl, fun _ => rfl⟩

theorem Sys2Proof.Laws.Carried.readback : Sys2Proof.Laws.Carried.Statement .readback :=
  ⟨fun _ => rfl, fun _ => rfl⟩

theorem Sys2Proof.Laws.Carried.recover : Sys2Proof.Laws.Carried.Statement .recover :=
  ⟨fun _ => rfl, fun _ => rfl⟩

theorem Sys2Proof.Laws.Carried.badCommandCode (code : BitVec 4) : Sys2Proof.Laws.Carried.Statement (.badCommandCode code) :=
  ⟨fun _ => rfl, fun _ => rfl⟩

theorem Sys2Proof.Laws.Carried.flagWordWrite (value : Word) : Sys2Proof.Laws.Carried.Statement (.flagWordWrite value) :=
  ⟨fun _ => rfl, fun _ => rfl⟩

theorem Sys2Proof.Laws.Carried.enablesWrite (value : Word) : Sys2Proof.Laws.Carried.Statement (.enablesWrite value) :=
  ⟨fun _ => rfl, fun _ => rfl⟩

theorem Sys2Proof.Laws.Carried.lineEnablesWrite (value : Word) : Sys2Proof.Laws.Carried.Statement (.lineEnablesWrite value) :=
  ⟨fun _ => rfl, fun _ => rfl⟩

theorem Sys2Proof.Laws.Carried.forceWordWrite (value : Word) : Sys2Proof.Laws.Carried.Statement (.forceWordWrite value) :=
  ⟨fun _ => rfl, fun _ => rfl⟩

theorem Sys2Proof.Laws.Carried.counterClear (address : Half) (value : Word) : Sys2Proof.Laws.Carried.Statement (.counterClear address value) :=
  ⟨fun _ => rfl, fun _ => rfl⟩

theorem Sys2Proof.Laws.Carried.lockedConfigWrite (address : Half) (value : Word) : Sys2Proof.Laws.Carried.Statement (.lockedConfigWrite address value) :=
  ⟨fun _ => rfl, fun _ => rfl⟩

theorem Sys2Proof.Laws.Carried.registerWrite (address : Half) (value : Word) : Sys2Proof.Laws.Carried.Statement (.registerWrite address value) :=
  ⟨fun _ => rfl, fun _ => rfl⟩

theorem Sys2Proof.Laws.Carried.csnRiseAfterPorn : Sys2Proof.Laws.Carried.Statement .csnRiseAfterPorn :=
  ⟨fun _ => rfl, fun _ => rfl⟩
end

