-- ==== Sys2Proof/Laws/Words.lean ====
section
/-! SUPPORT. The words of the register window as bit fields: what a field of a word is as a number, and that the codes of the
window are the codes that Safety lays out. -/

namespace Sys2Proof.Machine

/-- A field whose number fits in k bits stands at its place. -/
theorem field_toNat (n p k : Nat) (h : n < 2 ^ k) (hk : p + k ≤ 32) : (field n p).toNat = n <<< p := by
  have a : n < 2 ^ 32 := lt_of_lt_of_le h (Nat.pow_le_pow_right (by norm_num) (by omega))
  have b : n <<< p < 2 ^ 32 := by
    rw [Nat.shiftLeft_eq]
    calc n * 2 ^ p < 2 ^ k * 2 ^ p := Nat.mul_lt_mul_of_pos_right h (by positivity)
      _ = 2 ^ (p + k) := by rw [← pow_add, add_comm]
      _ ≤ 2 ^ 32 := Nat.pow_le_pow_right (by norm_num) hk
  simp only [field, word, BitVec.toNat_shiftLeft, BitVec.toNat_ofNat]
  rw [Nat.mod_eq_of_lt a, Nat.mod_eq_of_lt b]

/-- A bit vector as a field. -/
theorem field_bits {k : Nat} (x : BitVec k) (p : Nat) (hk : p + k ≤ 32) : (field x.toNat p).toNat = x.toNat <<< p :=
  field_toNat _ _ k x.isLt hk

/-- A flag is the field of its one bit. -/
theorem flagAt_ofBool (b : Bool) (p : Nat) : flagAt b p = field (BitVec.ofBool b).toNat p := by cases b <;> rfl

/-! ## Codes -/

theorem journalCode_shown (j : JournalState) : journalCode j = (journalShown j).toNat := by cases j <;> rfl

theorem resumeCode_shown (r : Option Resume) : resumeCode r = (resumeShown r).toNat := by
  rcases r with _ | r <;> [rfl; cases r <;> rfl]

theorem linkCode_shown (l : LinkState) : linkCode l = (linkShown l).toNat := by cases l <;> rfl

theorem commandCode_shown (c : LinkCmd) : commandCode c = codeShown c := by cases c <;> rfl

theorem cmdStatusCode_shown (x : CmdStatus) : cmdStatusCode x = (statusShown x).toNat := by cases x <;> rfl

theorem reasonCode_shown (r : Option Reason) : reasonCode r = (reasonShown r).toNat := by
  rcases r with _ | r <;> [rfl; cases r <;> rfl]

theorem markerCode_shown (m : MarkerState) : markerCode m = (markerStateShown m).toNat := by cases m <;> rfl

theorem errorCode_shown (k : LinkErr) : errorCode k = (kindShown k).toNat := by cases k <;> rfl

theorem outcomeCode_shown (o : ErrOutcome) : outcomeCode o = (outcomeShown o).toNat := by cases o <;> rfl

theorem causeCode_shown (c : SealCause) : BitVec.ofNat 8 (causeCode c) = causeShown c := by cases c <;> rfl

theorem blockBytes_shown (b : BlockSize) : blockBytes b = sizeShown b := by cases b <;> rfl

theorem sourceCode_shown : ∀ x : Source, sourceCode x = (sourceShown x).toNat
  | .trigger n => by fin_cases n <;> rfl
  | .pin => rfl
  | .command => rfl

/-! ## Bytes -/

/-- The two spellings of a little-endian number agree. -/
theorem littleEndian_eq (n v : Nat) : littleEndian n v = bytesLE n v := by
  induction n generalizing v with
  | zero => rfl
  | succ n ih =>
    rw [littleEndian, ih, bytesLE, bytesLE, List.range_succ_eq_map, List.map_cons, List.map_map]
    congr 1
    · simp
    · apply List.map_congr_left
      intro k _
      simp [Nat.div_div_eq_div_mul, pow_succ, Nat.mul_comm]

end Sys2Proof.Machine
end

