-- ==== Sys2Proof/Laws/Writes.lean ====
section
/-! SUPPORT. What each operation on the path of a write does, once and whole, in the terms of Safety. -/

namespace Sys2Proof.Machine

/-- Forwarding a write that was, or was not, in the slot. -/
theorem finishWrite_eq (w : WriteTxn) (s : State) : finishWrite w s = withForwarded w s := by
  have e : ∀ x : TrackEntry, fillOrdinal s.rtq.forwardCount x =
      { x with ordinal := some (x.ordinal.getD s.rtq.forwardCount) } := by
    rintro ⟨o, q, a, n, b⟩; cases o <;> rfl
  unfold finishWrite forwardWrite withForwarded
  simp only [funext e]

/-- With the slot empty, forwarding a write. -/
theorem forwardWrite_eq (w : WriteTxn) (s : State) (h : s.held = none) : forwardWrite w s = withForwarded w s := by
  rw [← finishWrite_eq, finishWrite, ← h]

theorem holdWrite_eq (w : WriteTxn) (h : Hold) (n : Nat) (s : State) : holdWrite w h n s = withHeld w h n s := rfl

theorem takeEntry_eq (w : WriteTxn) (q : Word) (b : Bool) (s : State) : takeEntry w q b s = withEntry w q b s := rfl

theorem loseMark_eq (s : State) : loseMark s = withMarkLost s := rfl

/-- The two spellings of a formed record and of its size agree. -/
theorem formData_eq (w : WriteTxn) (r : Region) : formData w r = formedFields w r := rfl

theorem dataSize_formData (w : WriteTxn) (r : Region) : dataSize (formData w r) = formedSize w := by
  unfold dataSize formData formedSize fullyStrobed roundUp8 writeLength
  cases w.lanes.all (·.strobe) <;> simp

/-- The flags after a rise of occupancy, STAGING_HIGH alone among them new. -/
theorem flags_rise (s t : State) :
    flagsWith (riseEvents s t) s =
      s.events.flags ||| (if s.staging.highArmed && decide (s.words.highWatermark < occupiedBytes t) then
        eventBit .stagingHigh &&& s.events.enables else 0) := by
  unfold flagsWith riseEvents
  cases s.staging.highArmed && decide (s.words.highWatermark < occupiedBytes t) <;> simp

/-- A record enters: the tail of staging, the next number, nothing open, STAGING_HIGH by its watermark. -/
theorem enterRecord_eq (b : Body) (s : State) :
    enterRecord b s =
      let v : State := { s with staging.queue := s.staging.queue ++ [⟨⟨s.capture.seqCounter, b⟩, 0⟩] }
      { v with
        staging.highArmed := armedAfterRise s v
        staging.lowWritten := false
        capture := ⟨s.capture.seqCounter + 1, s.capture.epochCounter, none, none⟩
        events.flags := flagsWith (riseEvents s v) s } := by
  simp only [flags_rise]; rfl

theorem enterData_eq (w : WriteTxn) (r : Fin 16) (f : DataFields) (s : State) :
    enterData w r f s = withData w r f s := by
  unfold enterData; rw [enterRecord_eq]; rfl

theorem enterMark_eq (tag : Half) (src : Source) (fenced final : Bool) (s : State) :
    enterMark tag src fenced final s = withMark tag src fenced final s := by
  unfold enterMark; simp only [enterRecord_eq]; rfl

theorem updateLast_eq {α : Type} (f : α → α) (l : List α) :
    updateLast f l = l.dropLast ++ (l.getLast?.map f).toList := by
  induction l with
  | nil => rfl
  | cons a l ih => cases l with
    | nil => rfl
    | cons b l => simpa [updateLast] using ih

theorem flagsWith_append (l m : List Event) (s : State) :
    flagsWith (l ++ m) s = m.foldl (fun f e => f ||| (eventBit e &&& s.events.enables)) (flagsWith l s) :=
  List.foldl_append

theorem accountLost_eq (w : WriteTxn) (label : Byte) (s : State) : accountLost w label s = withLost w label s := by
  unfold accountLost withLost
  cases h : s.capture.openGap with
  | none => simp only [bump_keeps, h, enterRecord_eq, flagsWith_append]; rfl
  | some o => simp only [bump_keeps, h, updateLast_eq]; rfl

theorem admitTriggerMark_eq (w : WriteTxn) (i : Fin 4) (s : State) : admitTriggerMark w i s = withMarked w i s := by
  unfold admitTriggerMark afterMark withMarked
  simp only [enterMark_eq, finishWrite_eq]
  rfl

/-- Room for a record of a size, as the statements spell it. -/
theorem roomForRecord_iff (n : Nat) (s : State) :
    roomForRecord n s = true ↔ n + 64 ≤ freeBytes s ∧ 3 ≤ freeSlots s := by simp [roomForRecord]

theorem beginMarkerWait_eq (w : WriteTxn) (r : Option (Fin 16)) (i : Fin 4) (s : State) :
    beginMarkerWait w r i s = withMarkerWait w r i s := by
  unfold beginMarkerWait withMarkerWait
  have e : (s.rtq.voids.isEmpty && roomForRecord markSize s) = true ↔
      s.rtq.voids = [] ∧ 80 ≤ freeBytes s ∧ 3 ≤ freeSlots s := by
    rw [Bool.and_eq_true, roomForRecord_iff, List.isEmpty_iff]; rfl
  simp only [e, finishWrite_eq, admitTriggerMark_eq, loseMark_eq, holdWrite_eq, listFull, decide_eq_true_eq]
  cases r <;> rfl

theorem afterData_eq (w : WriteTxn) (r : Fin 16) (trig : Option (Fin 4)) (s : State) :
    afterData w r trig s = withOutcome w r trig s := by
  unfold afterData withOutcome
  cases trig
  · exact finishWrite_eq w s
  · exact beginMarkerWait_eq w _ _ s

theorem trackWrite_eq (w : WriteTxn) (q : Word) (r : Fin 16) (trig : Option (Fin 4)) (s : State) :
    trackWrite w q r trig s = withTracked w q r trig s := by
  unfold trackWrite withTracked
  rw [afterData_eq]; rfl

/-- An own DATA record that is granted room. -/
theorem offerData_granted (w : WriteTxn) (r : Fin 16) (trig : Option (Fin 4)) (s : State) (h : s.held = none)
    (h1 : s.rtq.voids = []) (h2 : formedSize w + 64 ≤ freeBytes s) (h3 : 3 ≤ freeSlots s) :
    offerData w r trig s =
      withTracked w s.capture.seqCounter r trig (withData w r (formedFields w s.regions[r]) s) := by
  unfold offerData
  have e : (atOnce s && roomForRecord (dataSize (formData w s.regions[r])) s) = true := by
    rw [dataSize_formData, Bool.and_eq_true, roomForRecord_iff]
    exact ⟨by simp [atOnce, heldWaits, h, h1], h2, h3⟩
  simp only [e]
  simp only [if_true, trackWrite_eq, enterData_eq, formData_eq]

/-- An own DATA record that is refused room: held in a STALL region, lost in a SHED region. -/
theorem offerData_refused (w : WriteTxn) (r : Fin 16) (trig : Option (Fin 4)) (s : State)
    (h : s.rtq.voids ≠ [] ∨ freeBytes s < formedSize w + 64 ∨ freeSlots s < 3) :
    offerData w r trig s =
      match s.regions[r].policy with
      | .stall => withHeld w (.admitData r trig (formedFields w s.regions[r])) s.regions[r].stallLimit.toNat s
      | .shed => withOutcome w r trig (withLost w s.regions[r].label s) := by
  unfold offerData
  have e : ¬ (atOnce s && roomForRecord (dataSize (formData w s.regions[r])) s) = true := by
    rw [dataSize_formData, Bool.and_eq_true, roomForRecord_iff]
    rintro ⟨a, b, c⟩
    rcases h with h | h | h
    · simp [atOnce] at a; exact h a.1
    · omega
    · omega
  simp only [e, afterData_eq, accountLost_eq]
  rfl

/-- A write that stands alone has its own record. -/
theorem captureWrite_alone (w : WriteTxn) (r : Fin 16) (trig : Option (Fin 4)) (s : State) (h : standsAlone w r s) :
    captureWrite w r trig s = offerData w r trig s := by
  unfold captureWrite
  cases ho : s.capture.openRec with
  | none => rfl
  | some o =>
    have e : canMerge o w r s = false := by
      rcases h o ho with k | k | k | k | k | k
      · simp [canMerge, k]
      · simp [canMerge, k]
      · simp [canMerge, fullyStrobed, k]
      · have : ¬ o.length + writeLength w ≤ 256 := by unfold writeLength; omega
        simp [canMerge, this]
      · simp [canMerge, atOnce, k]
      · have : ¬ mergeGrowth o w + 64 ≤ freeBytes s := by unfold mergeGrowth roundUp8 writeLength; omega
        simp [canMerge, roomForGrowth, this]
    simp [e]

/-- A write that merges into the open record, which is the tail. -/
theorem mergeWrite_eq (o : OpenRec) (w : WriteTxn) (q : List Staged) (f : DataFields) (n : Nat) (s : State)
    (h : s.staging.queue = q ++ [⟨⟨o.seq, .data f⟩, n⟩]) :
    mergeWrite o w s =
      let v : State := { s with staging.queue := q ++ [⟨⟨o.seq, .data (mergeFields w f)⟩, n⟩] }
      { v with
        capture.openRec := some { o with length := o.length + w.lanes.length }
        staging.highArmed := if mergeGrowth o w = 0 then s.staging.highArmed else armedAfterRise s v
        staging.lowWritten := if mergeGrowth o w = 0 then s.staging.lowWritten else false
        events.flags := if mergeGrowth o w = 0 then s.events.flags else flagsWith (riseEvents s v) s
        counters := countersWith [(.capturedWrites, 1), (.capturedBytes, w.lanes.length)] s } := by
  unfold mergeWrite
  simp only [updateLast_eq, h, flags_rise]
  simp only [List.dropLast_concat, List.getLast?_concat, Option.map_some, Option.toList_some, mergeBody]
  by_cases g : mergeGrowth o w = 0
  · simp only [g, if_true]; rfl
  · simp only [g, if_false]; rfl

/-- A write that a region captures as it is taken. -/
theorem exec_captured (w : WriteTxn) (r : Fin 16) (s : State) (h : capturedBy w r s) :
    exec (.upstreamWriteTaken w) s =
      .next (captureWrite w r (matchingTrigger s.triggers w) (noteTaken (.write w) s)) := by
  obtain ⟨a, b, c, d, e, f, g⟩ := h
  have hl : lengthInRange (writeLength w) = true := by simp [lengthInRange, writeLength, a, b]
  have f' : capturing (noteTaken (.write w) s) = true := f
  show execUpstreamWriteTaken w s = _
  simp [execUpstreamWriteTaken, classifyWrite, hl, c, d, e, f', g]

/-- A trigger write in no region as it is taken. -/
theorem exec_trigger (w : WriteTxn) (i : Fin 4) (s : State) (a : 1 ≤ w.lanes.length) (b : w.lanes.length ≤ 256)
    (c : s.pornLow = false) (d : s.held = none) (e : crosses w = false) (f : capturing s = true)
    (g : winningRegion s.regions w = none) (h : matchingTrigger s.triggers w = some i) :
    exec (.upstreamWriteTaken w) s = .next (withMarkerWait w none i (noteTaken (.write w) s)) := by
  have hl : lengthInRange (writeLength w) = true := by simp [lengthInRange, writeLength, a, b]
  have f' : capturing (noteTaken (.write w) s) = true := f
  show execUpstreamWriteTaken w s = _
  simp [execUpstreamWriteTaken, classifyWrite, hl, c, d, e, f', g, h, beginMarkerWait_eq]

/-! ## Responses -/

theorem errorResponse_eq (e : TrackEntry) (rest : List TrackEntry) (s : State) :
    errorResponse e { s with rtq.tracking := rest } = withConsumed .error e rest s := by
  unfold errorResponse withConsumed
  change (if (!e.ended && (capturing s || (drainingLike s && s.staging.finalMark != .entered))) = true then _ else _) = _
  dsimp only
  generalize (capturing s || (drainingLike s && s.staging.finalMark != .entered)) = c
  by_cases g : s.rtq.voids.length < 4 <;> cases c <;> cases e.ended <;> simp only [g] <;> rfl

/-- A response that matches no entry changes nothing. -/
theorem matchResponse_other (a : WriteAnswer) (s : State)
    (h : ∀ e rest, s.rtq.tracking = e :: rest → e.ordinal ≠ some s.rtq.answerCount) : matchResponse a s = s := by
  unfold matchResponse
  split
  · rename_i e rest he
    rw [if_neg (h e rest he)]
  · rfl

/-- A response that matches the oldest entry consumes it, and the freed entry goes to a write held for TRACKING. -/
theorem matchResponse_own (a : WriteAnswer) (e : TrackEntry) (rest : List TrackEntry) (s : State)
    (h : s.rtq.tracking = e :: rest) (h2 : e.ordinal = some s.rtq.answerCount) :
    matchResponse a s = releaseTracking (withConsumed a e rest s) := by
  unfold matchResponse
  rw [h]
  dsimp only
  rw [if_pos h2]
  cases a
  · rfl
  · exact congrArg releaseTracking (errorResponse_eq e rest s)

/-- Consuming an entry leaves the slot as it was, and the rest of the entries. -/
@[simp] theorem withConsumed_keeps (a : WriteAnswer) (e : TrackEntry) (rest : List TrackEntry) (s : State) :
    (withConsumed a e rest s).held = s.held ∧ (withConsumed a e rest s).rtq.tracking = rest ∧
      (withConsumed a e rest s).rtq.forwardCount = s.rtq.forwardCount ∧
      (withConsumed a e rest s).rtq.answerCount = s.rtq.answerCount ∧ (withConsumed a e rest s).ports = s.ports := by
  unfold withConsumed; cases a
  · exact ⟨rfl, rfl, rfl, rfl, rfl⟩
  · dsimp only; split <;> exact ⟨rfl, rfl, rfl, rfl, rfl⟩

/-- Without a write held for TRACKING, a freed entry goes to none. -/
theorem releaseTracking_none (s : State) (h : ∀ w q r t b tm, s.held ≠ some ⟨w, .tracking q r t b, tm⟩) :
    releaseTracking s = s := by
  unfold releaseTracking
  split
  · rename_i x hx
    split
    · rename_i q r t b hb
      exact absurd (hx.trans (congrArg some (by rw [← hb]))) (h x.write q r t b x.timer)
    all_goals rfl
  · rfl

/-- A freed entry goes to the write held for TRACKING outside a stop. -/
theorem releaseTracking_held (w : WriteTxn) (q : Word) (r : Fin 16) (t : Option (Fin 4)) (tm : Option Timer) (s : State)
    (h : s.held = some ⟨w, .tracking q r t false, tm⟩) :
    releaseTracking s = withTracked w q r t { s with held := none } := by
  unfold releaseTracking; rw [h]; exact trackWrite_eq _ _ _ _ _

/-- A freed entry goes to the write kept for TRACKING across STOP: ended, and without a marker. -/
theorem releaseTracking_stopped (w : WriteTxn) (q : Word) (r : Fin 16) (t : Option (Fin 4)) (tm : Option Timer) (s : State)
    (h : s.held = some ⟨w, .tracking q r t true, tm⟩) :
    releaseTracking s = withForwarded w (withEntry w q true (if t.isSome then withMarkLost s else s)) := by
  unfold releaseTracking; rw [h]; dsimp only
  rw [if_pos rfl, finishWrite_eq]
  cases t <;> rfl

/-! ## STOP, and what becomes DURABLE -/

/-- What STOP does to the held write (R17). -/
theorem settleHeldForStop_eq (s : State) :
    settleHeldForStop s =
      match s.held with
      | none => s
      | some ⟨w, .admitData r _ _, _⟩ => withForwarded w (withLost w s.regions[r].label s)
      | some ⟨w, .tracking q r t _, tm⟩ => { s with held := some ⟨w, .tracking q r t true, tm⟩ }
      | some ⟨w, .marker _, _⟩ | some ⟨w, .admitMark _, _⟩ => withForwarded w (withMarkLost s)
      | some ⟨_, .fence _, _⟩ => s := by
  unfold settleHeldForStop
  rcases h : s.held with _ | ⟨w, hold, tm⟩
  · rfl
  · cases hold <;> simp only [finishWrite_eq, accountLost_eq, loseMark_eq]

/-- What departing markers do to the held write. -/
theorem releaseHeld_eq (gone : List Marker) (s : State) : releaseHeld gone s = withReleased gone s := by
  unfold releaseHeld withReleased
  rcases h : s.held with _ | ⟨w, hold, tm⟩
  · rfl
  · cases hold <;> simp only [fenceReleased, finishWrite_eq] <;> try rfl
    rename_i i
    unfold listFull
    by_cases g : s.markers.entries.length < 16
    · simp [g]
    · simp [g]

end Sys2Proof.Machine
end

