-- ==== Sys2Proof/Tests/Slice0.lean ====
section
/-! SUPPORT. Tests: the smoke test of WellFormed, small states, worked examples of the spec, and for every statement a state and
operands that meet its hypotheses. -/

namespace Sys2Proof.Tests

open Sys2Proof Sys2Proof.Machine

-- One test at a time: each evaluation by the kernel waits for the theorems before it, and holds a thread meanwhile.
set_option Elab.async false

/-! ## WellFormed refuses an ill-formed term for each check -/

theorem test_wf_write_empty : (Instr.upstreamWriteTaken ⟨0, 0, []⟩).wellFormed = false := by decide
theorem test_wf_read_long : (Instr.upstreamReadTaken ⟨0, 0, 257⟩).wellFormed = false := by decide
theorem test_wf_ident_start : (Instr.identResponse (BitVec.allOnes 160)).wellFormed = false := by decide
theorem test_wf_response_start : (Instr.setupResponse (BitVec.allOnes 64)).wellFormed = false := by decide
theorem test_wf_token_accept : (Instr.tokenInvalid 5 true).wellFormed = false := by decide
theorem test_wf_block_lines : (Instr.readBlockReceived ⟨true, [], [0, 0], [true, true]⟩).wellFormed = false := by decide
theorem test_wf_bad_frame_read :
    (Instr.mgmtBadFrame ([true, false, false, true, false, true, true, false] ++ List.replicate 48 false)).wellFormed
      = false := by decide
theorem test_wf_command_code : (Instr.badCommandCode 10).wellFormed = false := by decide
theorem test_wf_counter_address : (Instr.counterClear 0x5F 0).wellFormed = false := by decide
theorem test_wf_locked_address : (Instr.lockedConfigWrite 0x142 0).wellFormed = false := by decide
theorem test_wf_register_address : (Instr.registerWrite 0x10 0).wellFormed = false := by decide

/-! ## Small states -/

/-- Region 0: pages 10 to 1F, STALL with a limit of 50, coalescing, label 7; region 1: page 20, SHED, label 9. -/
def regions : Vector Region 16 :=
  (State.reset.regions.set 0 ⟨true, 0x10, 0x1F, .stall, 50, true, 7⟩).set 1 ⟨true, 0x20, 0x20, .shed, 0, false, 9⟩

/-- Trigger 0 at 0x30000, fenced; trigger 1 at 0x30008, not fenced. -/
def triggers : Vector Trigger 4 := (State.reset.triggers.set 0 ⟨true, 0x30000, true⟩).set 1 ⟨true, 0x30008, false⟩

/-- An ACTIVE journal with the tables above and every event enabled. -/
def on : State :=
  { State.reset with
    journal.state := .active
    regions := regions
    triggers := triggers
    events.enables := 0xFFFF }

/-- A write of n bytes, fully strobed, at an address. -/
def wr (a : Addr) (n : Nat) : WriteTxn := ⟨a, 1, List.replicate n ⟨0x5A, true⟩⟩

/-- A DATA record of n bytes that is staged. -/
def staged (n : Nat) : Staged := ⟨⟨3, .data ⟨7, 0x10000, n, false, none, List.replicate n 0x5A⟩⟩, 0⟩

/-- Staging with 80 bytes free: 240 records of 272 store bytes, and one of 176. -/
def full : List Staged := List.replicate 240 (staged 256) ++ [staged 160]

/-- The state with no room in staging. -/
def crowded : State := { on with staging.queue := full }

/-- The same with a GAP record open, its count at its top. -/
def gapped : State :=
  { crowded with
    capture.openGap := some ⟨9, ⟨9, false, 0x20000, 0x20008, 65535, 8⟩⟩
    staging.queue := full ++ [⟨⟨9, .gap ⟨9, false, 0x20000, 0x20008, 65535, 8⟩⟩, 0⟩] }

/-- A fresh open record of 192 bytes that a write of 64 at its end fills up to the limit of 256. -/
def merging : State :=
  { on with
    capture.openRec := some ⟨0, 0, 0x10000, 192⟩
    staging.queue := [⟨⟨0, .data ⟨7, 0x10000, 192, false, none, List.replicate 192 0x5A⟩⟩, 0⟩] }

/-- A tracking entry with an ordinal. -/
def entry (n : Word) : TrackEntry := ⟨some n, n, 0x10000, 8, false⟩

/-- The same state with a write held. -/
def holding (h : Hold) (t : Option Timer) (s : State) : State := { s with held := some ⟨wr 0x10000 8, h, t⟩ }

/-- A DATA record's fields for the held write. -/
def heldFields : DataFields := ⟨7, 0x10000, 8, false, none, List.replicate 8 0x5A⟩

/-- The link in a state and a step of its exchange. -/
def linkAt (st : LinkState) (p : Phase) (s : State) : State := { s with link.state := st, link.phase := p }

/-- A sealed block of serial n. -/
def block (n : Word) : Block := ⟨⟨8, n, 0, 1, 0, [1, 2, 3, 4, 5, 6, 7, 8]⟩, 1, .timer⟩

/-- One entry of 112 blocks at 200,000, then one of 2,000 at 300,000, the last one (the chain of the worked example of chapter
8, less the entries it does not name). -/
def chain : List Extent := [⟨true, 200000, 112, false, true⟩, ⟨true, 300000, 2000, true, false⟩]

/-- Space on that chain, the head at (0, 100). -/
def space : Space := { Space.por with chain := chain, head := ⟨0, 100⟩, tail := ⟨0, 12⟩, boundary := ⟨0, 90⟩, used := 88,
                                      durableUsed := 78 }

/-- The state of the worked example of chapter 8: block 41 SEALED, the link READY, the tag counter 90. -/
def ready : State :=
  { linkAt .ready (.rest true true) on with
    space := space
    window := on.window.set 0 (.sealed (block 41))
    framer.serialCounter := 42
    link.tagCounter := 90
    link.width := .four }

/-- The same with the run of 12 open, opened with tag 90. -/
def inRun : State :=
  { linkAt .inRun (.rest true true) ready with link.run := some ⟨200100, 12, 12, 90⟩, link.sentTag := 90 }

/-- Block 41 is out and its token is awaited. -/
def waiting : State :=
  { linkAt .tokenWait (.token 41 200100) inRun with window := on.window.set 0 (.inFlight (block 41)) }

/-- A short response of the store. -/
def response (c : LinkCmd) (tag : Byte) (status : Word) (code : Byte) : BitVec 64 :=
  let body : BitVec 54 := 0#2 ++ commandCode c ++ tag ++ status ++ code
  body ++ crc8 (bitsOf body) ++ 3#2

/-- A long response of the store to IDENT. -/
def identity (tag : Byte) (capacity : Word) (sizes width : BitVec 4) (serial : BitVec 64) : BitVec 160 :=
  let body : BitVec 142 := 0#2 ++ commandCode .ident ++ tag ++ capacity ++ sizes ++ width ++ 0#24 ++ serial
  body ++ crc16 (bitsOf body) ++ 3#2

/-- The response window of a command, with the tag 90. -/
def window (c : LinkCmd) (s : State) : State := { linkAt .init (.window c) s with link.sentTag := 90 }

/-- The next state of an outcome, if it is one. -/
def next (o : Host.Outcome State Fault Refusal) : Option State :=
  match o with
  | .next s => some s
  | .fault _ | .refused _ => none

/-! ## Hypotheses that are met: the machine and its invariants -/

theorem witness_quiet : State.reset.pending = [] := rfl

theorem witness_transferOk :
    transferOk (.upstreamReadTaken ⟨0, 0, 1⟩) = true ∧ transferOk (.upstreamReadTaken ⟨0, 0, 256⟩) = true ∧
      transferOk (.upstreamReadTaken ⟨0, 0, 257⟩) = false ∧ transferOk (.upstreamWriteTaken (wr 0 0)) = false := by decide

theorem witness_commandsKeepQueue : ∃ t, exec .marknRequest State.reset = .next t := ⟨_, rfl⟩

/-- Reset with a read at the front of its queue: safe, and its step takes the read. -/
def reading : State := { State.reset with pending := [.upstreamReadTaken ⟨0, 0, 4⟩] }

theorem witness_stepKeeps : safe reading = true ∧ ∃ t, step reading = .next t := ⟨by decide, _, rfl⟩

theorem witness_stagingOk : stagingOk on = true ∧ stagingOk merging = true ∧ stagingOk crowded = true ∧ stagingOk gapped = true := by
  decide +kernel

theorem witness_flightOk :
    flightOk waiting = true ∧ slotsInFlight waiting = 1 ∧ flightOk ready = true ∧ slotsInFlight ready = 0 := by decide

theorem witness_lockedConfigurationKept :
    on.journal.state ≠ .stopped ∧ (Instr.lockedConfigWrite 0x10 512) ≠ .pornFall ∧
      ∃ t, exec (.lockedConfigWrite 0x10 512) on = .next t := ⟨by decide, by decide, _, rfl⟩

theorem witness_flagsNeedEnables :
    ∃ t, exec (.forceWordWrite 1) on = .next t ∧ t.events.flags.getLsbD (eventNumber .epochDurable) = true :=
  ⟨_, rfl, by decide⟩

theorem witness_headMoves :
    Instr.accept.wellFormed = true ∧ ∃ t, exec .accept waiting = .next t ∧ t.space.head ≠ waiting.space.head :=
  ⟨rfl, _, rfl, by decide⟩

theorem witness_bufferChanges :
    (∃ t, exec .stop on = .next t) ∧ Instr.stop ≠ .pornFall ∧ ∀ b, Instr.stop ≠ .readBlockReceived b :=
  ⟨⟨_, rfl⟩, by decide, fun _ => Instr.noConfusion⟩

theorem witness_masksChange :
    (∃ t, exec (.enablesWrite 1) on = .next t ∧ t.events.enables ≠ on.events.enables) ∧
      (∃ t, exec (.registerWrite 0x42 1) on = .next t ∧ t.events.lineEnables ≠ on.events.lineEnables) ∧
      (Instr.registerWrite 0x42 1).wellFormed = true := ⟨⟨_, rfl, by decide⟩, ⟨_, rfl, by decide⟩, by decide⟩

/-! ## The memory ports -/

theorem witness_porn :
    on.pornLow = false ∧ { on with pornLow := true }.pornLow = true ∧
      cutMark (linkAt .sending (.blockOut 41 200100) on) = [.cut] ∧ cutMark on = [] ∧
      (heldTxn (holding (.fence 1) none on)).length = 1 := by decide

theorem witness_reads :
    on.held = none ∧ (holding (.fence 1) none on).held.isSome = true ∧ 1 ≤ (⟨0, 0, 256⟩ : ReadTxn).len ∧
      (⟨0, 0, 256⟩ : ReadTxn).len ≤ 256 := by decide

theorem witness_uncaptured :
    on.held = none ∧ 1 ≤ (wr 0x10FFF 2).lanes.length ∧ crosses (wr 0x10FFF 2) = true ∧
      capturing State.reset = false ∧
      (winningRegion on.regions (wr 0x50000 256) = none ∧ matchingTrigger on.triggers (wr 0x50000 256) = none) ∧
      (holding (.fence 1) none on).held.isSome = true ∧ (holding (.fence 1) none on).pornLow = false := by decide

theorem witness_captured :
    let w := wr 0x10F00 256
    capturedBy w 0 on ∧ standsAlone w 0 on ∧ matchingTrigger on.triggers w = none ∧ on.rtq.voids = [] ∧
      on.rtq.tracking.length < 32 ∧ formedSize w + 64 ≤ freeBytes on ∧ 3 ≤ freeSlots on :=
  ⟨by unfold capturedBy; decide +kernel, fun _ => nofun, by decide +kernel, rfl, by decide, by decide +kernel, by decide⟩

/-- A trigger inside region 0, and one inside region 1. -/
def triggersInside : State :=
  { on with triggers := (on.triggers.set 2 ⟨true, 0x10008, true⟩).set 3 ⟨true, 0x20008, false⟩ }

theorem witness_captured_trigger :
    let w := wr 0x10008 8
    capturedBy w 0 triggersInside ∧ matchingTrigger triggersInside.triggers w = some 2 ∧
      capturedBy (wr 0x20008 8) 1 triggersInside ∧ matchingTrigger triggersInside.triggers (wr 0x20008 8) = some 3 :=
  ⟨by unfold capturedBy; decide, by decide, by unfold capturedBy; decide, by decide⟩

theorem witness_merged :
    let w := wr 0x100C0 64
    capturedBy w 0 merging ∧ merging.capture.openRec = some ⟨0, 0, 0x10000, 192⟩ ∧
      (∃ q f n, merging.staging.queue = q ++ [⟨⟨0, .data f⟩, n⟩]) ∧ w.addr.toNat = 0x10000 + 192 ∧
      w.lanes.all (·.strobe) = true ∧ 192 + w.lanes.length ≤ 256 ∧ merging.rtq.voids = [] ∧
      64 + 64 ≤ freeBytes merging :=
  ⟨by unfold capturedBy; decide, rfl, ⟨[], _, 0, rfl⟩, by decide, by decide, by decide, rfl, by decide⟩

/-- A state stands alone of a write for each condition of R39 that fails: another region, an address that is not the record's end,
a strobe of 0, a combined length of 257, a pending VOID, and growth of 64 bytes refused with 127 free. -/
theorem witness_standsAlone :
    standsAlone (wr 0x100C0 64) 1 merging ∧ standsAlone (wr 0x100C1 8) 0 merging ∧
      standsAlone ⟨0x100C0, 1, [⟨1, true⟩, ⟨2, false⟩]⟩ 0 merging ∧ standsAlone (wr 0x100C0 65) 0 merging ∧
      standsAlone (wr 0x100C0 64) 0 { merging with rtq.voids := [⟨41, 0x10040, 64⟩] } ∧
      standsAlone (wr 0x10000 8) 0
        { crowded with capture.openRec := some ⟨3, 0, 0xFF60, 160⟩, staging.queue := full ++ [staged 0] } := by
  refine ⟨?_, ?_, ?_, ?_, ?_, ?_⟩ <;> intro o h <;> cases h
  · exact .inl (by decide)
  · exact .inr (.inl (by decide))
  · exact .inr (.inr (.inl rfl))
  · exact .inr (.inr (.inr (.inl (by decide))))
  · exact .inr (.inr (.inr (.inr (.inl (by decide)))))
  · exact .inr (.inr (.inr (.inr (.inr (by decide +kernel)))))

theorem witness_shed :
    let w := wr 0x20000 8
    capturedBy w 1 crowded ∧ standsAlone w 1 crowded ∧ crowded.regions[(1 : Fin 16)].policy = .shed ∧
      freeBytes crowded < formedSize w + 64 :=
  ⟨by unfold capturedBy; decide +kernel, fun _ => nofun, by decide +kernel, by decide +kernel⟩

theorem witness_shed_extends :
    capturedBy (wr 0x20000 8) 1 gapped ∧ standsAlone (wr 0x20000 8) 1 gapped ∧
      freeBytes gapped < formedSize (wr 0x20000 8) + 64 ∧ gapped.capture.openGap.isSome = true :=
  ⟨by unfold capturedBy; decide +kernel, fun _ => nofun, by decide +kernel, rfl⟩

theorem witness_stalled :
    capturedBy (wr 0x10000 8) 0 crowded ∧ standsAlone (wr 0x10000 8) 0 crowded ∧
      crowded.regions[(0 : Fin 16)].policy = .stall ∧ freeBytes crowded < formedSize (wr 0x10000 8) + 64 :=
  ⟨by unfold capturedBy; decide +kernel, fun _ => nofun, by decide +kernel, by decide +kernel⟩

theorem witness_tracking_full :
    let s : State := { on with rtq.tracking := List.replicate 32 (entry 5) }
    32 ≤ s.rtq.tracking.length ∧ s.rtq.voids = [] ∧ capturedBy (wr 0x10000 8) 0 s ∧ standsAlone (wr 0x10000 8) 0 s ∧
      formedSize (wr 0x10000 8) + 64 ≤ freeBytes s ∧ 3 ≤ freeSlots s :=
  ⟨by decide, rfl, by unfold capturedBy; decide, fun _ => nofun, by decide, by decide⟩

theorem witness_trigger :
    let w := wr 0x30000 8
    crosses w = false ∧ winningRegion on.regions w = none ∧ matchingTrigger on.triggers w = some 0 ∧
      on.triggers[(0 : Fin 4)].fenced = true ∧ matchingTrigger on.triggers (wr 0x30008 1) = some 1 ∧
      on.triggers[(1 : Fin 4)].fenced = false ∧ on.capture.epochCounter ≠ 4294967295 ∧ 0 < on.words.fenceLimit ∧
      on.markers.entries.length < 16 ∧ 80 ≤ freeBytes on ∧ 3 ≤ freeSlots on := by decide

/-- A marker entry. -/
def marker (e : Word) (fenced final : Bool) (st : MarkerState) (serial : Option Word) : Marker :=
  ⟨e, 0xBEEF, .command, fenced, final, e, serial, st⟩

theorem witness_trigger_list_full :
    16 ≤ ({ on with markers.entries := List.replicate 16 (marker 1 false false .recorded none) } : State).markers.entries.length ∧
      ({ on with capture.epochCounter := 4294967295 } : State).capture.epochCounter = 4294967295 := by decide

theorem witness_trigger_refused :
    let s : State := { on with rtq.voids := [⟨41, 0x10040, 64⟩] }
    s.markers.entries.length < 16 ∧ ¬ (s.rtq.voids = [] ∧ 80 ≤ freeBytes s ∧ 3 ≤ freeSlots s) ∧
      ¬ 80 ≤ freeBytes { crowded with staging.queue := full ++ [staged 8] } := by decide +kernel

theorem witness_response_matched :
    let s : State := { on with rtq := ⟨6, 5, [entry 5], []⟩ }
    s.pornLow = false ∧ s.rtq.tracking = [entry 5] ∧ (entry 5).ordinal = some s.rtq.answerCount ∧
      (entry 5).ended = false ∧ (∀ w q r t b tm, s.held ≠ some ⟨w, .tracking q r t b, tm⟩) ∧ capturing s = true ∧
      s.rtq.voids.length < 4 := ⟨rfl, rfl, rfl, rfl, fun _ _ _ _ _ _ => nofun, rfl, by decide⟩

theorem witness_response_late :
    let s : State := { on with rtq := ⟨6, 5, [entry 5], List.replicate 4 ⟨1, 0, 8⟩⟩ }
    capturing s = true ∧ 4 ≤ s.rtq.voids.length ∧ ({ entry 5 with ended := true } : TrackEntry).ended = true := by decide

/-- A response comes while PORn is low, and one while it is high. -/
theorem witness_response_low : ({ on with pornLow := true } : State).pornLow = true ∧ on.pornLow = false := by decide

/-- Journal drains, with the FINAL MARK record still out of staging and in it; also FAULTED over DRAINING. -/
theorem witness_response_draining :
    let s (j : JournalState) (r : Option Resume) (f : FinalMark) : State :=
      { on with journal.state := j, journal.resume := r, staging.finalMark := f, rtq := ⟨6, 5, [entry 5], []⟩ }
    (s .draining none .waiting).journal.state = .draining ∧ (s .draining none .waiting).staging.finalMark ≠ .entered ∧
      (s .faulted (some .draining) .entered).journal.resume = some .draining ∧
      (s .faulted (some .draining) .entered).staging.finalMark = .entered := by decide

/-- A response comes while a write is held for ADMISSION, MARKER or FENCE. -/
theorem witness_response_held (w q r t b tm) :
    (holding (.admitData 0 none heldFields) none on).held ≠ some ⟨w, .tracking q r t b, tm⟩ ∧
      (holding (.marker 0) none on).held ≠ some ⟨w, .tracking q r t b, tm⟩ ∧
      (holding (.fence 1) none on).held ≠ some ⟨w, .tracking q r t b, tm⟩ := ⟨nofun, nofun, nofun⟩

/-- The oldest entry has another ordinal, or waits for its own. -/
theorem witness_response_other :
    let s : State := { on with rtq := ⟨6, 4, [entry 5], []⟩ }
    (entry 5).ordinal ≠ some s.rtq.answerCount ∧ ({ entry 5 with ordinal := none } : TrackEntry).ordinal = none := by decide

theorem witness_tracking_freed :
    let s (t : Option (Fin 4)) (b : Bool) : State :=
      holding (.tracking 7 0 t b) none { on with rtq := ⟨6, 5, [entry 5], []⟩ }
    (s none false).pornLow = false ∧ (s none false).held = some ⟨wr 0x10000 8, .tracking 7 0 none false, none⟩ ∧
      (s (some 1) true).held = some ⟨wr 0x10000 8, .tracking 7 0 (some 1) true, none⟩ ∧
      (s none true).rtq.tracking = [entry 5] ∧ (entry 5).ordinal = some (s none true).rtq.answerCount := by decide

theorem witness_stall_limit :
    let s (t : Option (Fin 4)) := holding (.admitData 0 t heldFields) (some ⟨50, 50⟩) crowded
    (s none).pornLow = false ∧ (s none).held = some ⟨wr 0x10000 8, .admitData 0 none heldFields, some ⟨50, 50⟩⟩ ∧
      (s none).capture.openGap = none ∧
      (s (some 2)).held = some ⟨wr 0x10000 8, .admitData 0 (some 2) heldFields, some ⟨50, 50⟩⟩ := by decide

theorem witness_marker_limits :
    (holding (.marker 0) (some ⟨100000, 100000⟩) on).held = some ⟨wr 0x10000 8, .marker 0, some ⟨100000, 100000⟩⟩ ∧
      (holding (.admitMark 0) (some ⟨100000, 100000⟩) on).held =
        some ⟨wr 0x10000 8, .admitMark 0, some ⟨100000, 100000⟩⟩ ∧
      (holding (.fence 1) (some ⟨100000, 100000⟩) on).held = some ⟨wr 0x10000 8, .fence 1, some ⟨100000, 100000⟩⟩ ∧
      on.held = none := by decide

/-- A limit row meets a hold of another reason, and a hold of its own reason without a timer. -/
theorem witness_other_holds (w r t f i e) (tm : Timer) :
    (holding (.fence 1) (some ⟨1, 1⟩) on).held ≠ some ⟨w, .admitData r t f, some tm⟩ ∧
      (holding (.admitData 0 none heldFields) none on).held ≠ some ⟨w, .admitData r t f, some tm⟩ ∧
      (holding (.fence 1) (some ⟨1, 1⟩) on).held ≠ some ⟨w, .marker i, some tm⟩ ∧
      (holding (.marker 0) (some ⟨1, 1⟩) on).held ≠ some ⟨w, .fence e, some tm⟩ := ⟨nofun, nofun, nofun, nofun⟩

/-! ## The admission arbiter -/

theorem witness_void :
    let s : State := { on with rtq.voids := [⟨41, 0x10040, 64⟩] }
    s.pornLow = false ∧ s.rtq.voids = [⟨41, 0x10040, 64⟩] ∧ 88 ≤ freeBytes s ∧ 3 ≤ freeSlots s ∧
      freeBytes crowded < 88 := by decide +kernel

theorem witness_heldData :
    let s := holding (.admitData 0 none heldFields) none on
    s.held = some ⟨wr 0x10000 8, .admitData 0 none heldFields, none⟩ ∧ s.rtq.voids = [] ∧
      16 + (heldFields.length + 7) / 8 * 8 + 64 ≤ freeBytes s ∧ 3 ≤ freeSlots s ∧ s.rtq.tracking.length < 32 ∧
      freeBytes (holding (.admitData 0 none heldFields) none crowded) < 16 + 8 + 64 := by decide +kernel

theorem witness_heldMark :
    let s := holding (.admitMark 0) (some ⟨100000, 0⟩) on
    s.held = some ⟨wr 0x10000 8, .admitMark 0, some ⟨100000, 0⟩⟩ ∧ s.rtq.voids = [] ∧ 80 ≤ freeBytes s ∧
      3 ≤ freeSlots s ∧ s.markers.entries.length < 16 ∧ s.capture.epochCounter ≠ 4294967295 ∧ 0 < s.words.fenceLimit ∧
      s.triggers[(0 : Fin 4)].fenced = true ∧ s.triggers[(1 : Fin 4)].fenced = false := by decide

/-- A held claim finds no room, a pending VOID before it, or 16 entries in the list. -/
theorem witness_held_claims_wait :
    let s (x : State) := holding (.admitMark 0) (some ⟨100000, 0⟩) x
    (s { on with rtq.voids := [⟨41, 0x10040, 64⟩] }).rtq.voids ≠ [] ∧
      freeBytes (s { crowded with staging.queue := full ++ [staged 8] }) < 80 ∧
      ¬ (s { on with markers.entries := List.replicate 16 (marker 1 false false .recorded none) }).markers.entries.length < 16 :=
  by decide +kernel

theorem witness_finalMark :
    let s : State := { on with staging.finalMark := .waiting, journal.state := .draining }
    s.pornLow = false ∧ s.staging.finalMark = .waiting ∧ s.rtq.voids = [] ∧ heldWaits s = false ∧ 80 ≤ freeBytes s ∧
      3 ≤ freeSlots s ∧ s.markers.entries.length < 16 := by decide

theorem witness_pin :
    capturing State.reset = false ∧ capturing on = true ∧ 80 ≤ freeBytes on ∧ 3 ≤ freeSlots on ∧ on.rtq.voids = [] ∧
      heldWaits on = false ∧ on.markers.entries.length < 16 ∧ on.capture.epochCounter ≠ 4294967295 ∧
      ({ on with capture.epochCounter := 4294967295 } : State).capture.epochCounter = 4294967295 := by decide

/-! ## The Framer -/

/-- The draft of an opened block with n payload bytes, B being 512. -/
def draft (n : Nat) : Draft := ⟨8, 40, 0, 1, 3, List.replicate n 0⟩

/-- A block of B = 512 with n payload bytes is assembled in slot 2, and staging holds the given records. -/
def framing (n : Nat) (q : List Staged) : State :=
  { on with
    framer.blockSize := .b512
    window := on.window.set 2 (.assembling (draft n))
    staging.queue := q
    framer.sealTimer := some ⟨500, 500⟩ }

/-- A MARK record in staging. -/
def markStaged (final : Bool) : Staged := ⟨⟨9, .mark ⟨1, 7, .pin, false, final⟩⟩, 0⟩

theorem witness_framer_copies :
    let s := framing 100 [staged 256]
    s.pornLow = false ∧ assembling s = some (2, draft 100) ∧ s.staging.queue = [staged 256] ∧ hasClosed s = true ∧
      (draft 100).payload.length < payloadSize s.framer.blockSize ∧ recordSize (staged 256).record < 480 - 100 ∧
      s.framer.due = .none := by decide +kernel

theorem witness_framer_fills :
    let s := framing 208 [staged 256]
    assembling s = some (2, draft 208) ∧ hasClosed s = true ∧ 480 - 208 ≤ recordSize (staged 256).record := by decide +kernel

theorem witness_framer_cuts :
    let s := framing 472 [markStaged false]
    assembling s = some (2, draft 472) ∧ hasClosed s = true ∧ 480 - 472 < recordSize (markStaged false).record := by decide +kernel

theorem witness_framer_marks :
    let s := framing 464 [markStaged true]
    assembling s = some (2, draft 464) ∧ (markStaged true).record.body = .mark ⟨1, 7, .pin, false, true⟩ ∧
      hasClosed s = true ∧ recordSize (markStaged true).record ≤ 480 - 464 := by decide +kernel

theorem witness_framer_notMark : ∀ f, (staged 256).record.body ≠ .mark f := fun _ => Body.noConfusion

theorem witness_framer_due :
    let s : State := { framing 100 [staged 256] with framer.due := .pause }
    s.framer.due ≠ .none ∧ assembling s = some (2, draft 100) := by decide

/-- The last closed record is copied while a seal is due, an open DATA record of 24 bytes behind it: it fits, and it does not. -/
theorem witness_framer_due_open :
    let o : Staged := ⟨⟨4, .data ⟨7, 0x10000, 8, true, none, List.replicate 8 0x5A⟩⟩, 0⟩
    let s (n : Nat) : State :=
      { framing n [staged 8, o] with framer.due := .timer, capture.openRec := some ⟨4, 0, 0x10000, 8⟩ }
    hasClosed (s 432) = true ∧ recordSize (staged 8).record < 480 - 432 ∧ (s 432).framer.due ≠ .none ∧ o.taken = 0 ∧
      hasClosed { s 432 with staging.queue := [o] } = false ∧ recordSize o.record ≤ 480 - (432 + 24) ∧
      hasClosed (s 440) = true ∧ recordSize (staged 8).record < 480 - 440 ∧ 480 - (440 + 24) < recordSize o.record := by
  decide +kernel

theorem witness_framer_opens :
    let s : State := { on with staging.queue := [staged 8] }
    s.pornLow = false ∧ assembling s = none ∧ hasClosed s = true ∧ lowestFree s = some 0 ∧ hasClosed on = false := by decide

theorem witness_framer_waits :
    let s : State := { on with window := Vector.replicate 8 (.sealed (block 1)), staging.queue := [staged 8] }
    assembling s = none ∧ lowestFree s = none := by decide

theorem witness_seal_timer :
    (framing 8 []).framer.sealTimer.isSome = true ∧ assembling (framing 8 []) = some (2, draft 8) ∧
      (framing 8 []).framer.due = .none ∧ hasClosed (framing 8 [staged 8]) = true ∧ (framing 8 []).staging.queue = [] ∧
      on.framer.sealTimer = none := by decide

theorem witness_seal_timer_pause :
    let s : State := { framing 8 [] with framer.due := .pause }
    s.framer.due = .pause ∧ s.framer.sealTimer.isSome = true ∧ s.staging.queue = [] := by decide

theorem witness_seal_timer_open :
    let s (n : Nat) : State := { framing n [staged 8] with capture.openRec := some ⟨3, 0, 0x10000, 8⟩ }
    hasClosed (s 456) = false ∧ recordSize (staged 8).record ≤ 480 - (draft 456).payload.length ∧
      hasClosed (s 464) = false ∧ 480 - (draft 464).payload.length < recordSize (staged 8).record ∧
      (staged 8).taken = 0 := by decide +kernel

/-! ## The store link -/

theorem witness_waits_end :
    (linkAt .init .idlePeriod on).link.phase = .idlePeriod ∧ (linkAt .init .poll on).link.phase = .poll ∧
      (linkAt .init .settle on).link.phase = .settle ∧ (linkAt .init .settle on).link.resetDue = false ∧
      (linkAt .init .settle on).link.abandoning = false ∧
      (∃ s : State, s.link.phase = .settle ∧ s.link.resetDue = true) ∧
      (∃ s : State, s.link.phase = .settle ∧ s.link.abandoning = true ∧ s.link.state = .init) ∧
      (linkAt .init (.gap .setup) on).link.phase = .gap .setup ∧ inRun.link.run = some ⟨200100, 12, 12, 90⟩ ∧
      (linkAt .init (.frame .resetStore) on).link.phase = .frame .resetStore :=
  ⟨rfl, rfl, rfl, rfl, rfl, ⟨{ linkAt .init .settle on with link.resetDue := true }, rfl, rfl⟩,
    ⟨{ linkAt .init .settle on with link.abandoning := true }, rfl, rfl, rfl⟩, rfl, rfl, rfl⟩

/-- The link waits for nothing; and a response window that an abandonment lets end. -/
theorem witness_waits_elsewhere :
    on.link.phase ≠ .idlePeriod ∧ on.link.phase ≠ .poll ∧ on.link.phase ≠ .settle ∧ (∀ c, on.link.phase ≠ .frame c) ∧
      (∀ c, waiting.link.phase ≠ .gap c) ∧ (∀ g d, waiting.link.phase ≠ .rest g d) ∧
      ({ window .commit on with link.resetDue := true } : State).link.phase = .window .commit ∧
      responseRow 0 .commit = some (.commitResponse 0) :=
  ⟨by decide, by decide, by decide, fun _ => Phase.noConfusion, fun _ => Phase.noConfusion, fun _ _ => Phase.noConfusion, rfl,
    rfl⟩

/-- No window, busy wait or read data window is open, and no block is on its way. -/
theorem witness_windows_shut :
    (∀ c, on.link.phase ≠ .window c) ∧ (∀ serial addr, on.link.phase ≠ .token serial addr) ∧
      (∀ serial addr limit, on.link.phase ≠ .busyToken serial addr limit) ∧ (∀ c limit, on.link.phase ≠ .busyCmd c limit) ∧
      on.link.phase ≠ .readData ∧ (∀ serial addr, on.link.phase ≠ .blockOut serial addr) :=
  ⟨fun _ => Phase.noConfusion, fun _ _ => Phase.noConfusion, fun _ _ _ => Phase.noConfusion, fun _ _ => Phase.noConfusion,
    by decide, fun _ _ => Phase.noConfusion⟩

theorem witness_choose_ready :
    sends ready = true ∧ ready.link.state = .ready ∧ ready.link.readback = none ∧ commitOwed ready = false ∧
      ready.link.pauseReq = false ∧ hasSealed ready = true ∧ 0 < freeBlocks ready ∧ hasSealed on = false ∧
      commitOwed { ready with markers.entries := [marker 1 false false .accepted (some 40)] } = true ∧
      ready.link.phase = .rest true true := by decide

theorem witness_choose_pause :
    let s : State := { ready with
      journal.state := .pausing
      journal.slot := ⟨4, 4, .running, none, 0, 0⟩
      link.pauseReq := true }
    sends s = true ∧ commitOwed s = false ∧ s.link.pauseReq = true ∧ s.journal.slot.status = .running := by decide

theorem witness_choose_inRun :
    sends inRun = true ∧ inRun.link.state = .inRun ∧ commitOwed inRun = false ∧ inRun.link.pauseReq = false ∧
      inRun.link.run = some ⟨200100, 12, 12, 90⟩ ∧ hasSealed inRun = true ∧ 0 < freeBlocks inRun ∧
      freeBlocks { inRun with space.used := 2112 } = 0 ∧ hasSealed { inRun with window := on.window } = false ∧
      inRun.link.idle = none ∧ inRun.words.runIdleLimit ≠ 0 := by decide

theorem witness_choose_used_up :
    let s (n : Nat) : State := { inRun with link.run := some ⟨200100, n, 0, 90⟩ }
    (s 255).link.run = some ⟨200100, 255, 0, 90⟩ ∧ (s 256).link.run = some ⟨200100, 256, 0, 90⟩ ∧
      commitOwed (s 255) = false := by decide

theorem witness_choose_still :
    let s : State := { ready with journal.state := .faulted }
    s.journal.state = .faulted ∧ s.link.readback = none ∧ s.link.state = .ready ∧
      ({ ready with link.readback := some 5 } : State).link.readback = some 5 ∧ on.link.state ≠ .ready ∧
      on.link.state ≠ .inRun ∧ ({ inRun with link.run := none } : State).link.run = none := by decide

/-- PAUSING with no RUNNING command; and PAUSED, at rest, with RECOVER bringing the link to its boundary and without. -/
theorem witness_choose_paused :
    let s (j : JournalState) (r : CmdRecord) (q : Bool) : State :=
      { ready with journal.state := j, journal.slot := r, link.pauseReq := q }
    sends (s .pausing ready.journal.slot true) = true ∧ (s .pausing ready.journal.slot true).journal.slot.status ≠ .running ∧
      (s .paused ⟨4, 9, .running, none, 0, 0⟩ true).journal.slot.code = 9 ∧
      (s .paused ⟨4, 9, .running, none, 0, 0⟩ true).link.readback = none ∧
      commitOwed (s .paused ⟨4, 9, .running, none, 0, 0⟩ true) = false ∧
      commitOwed { s .paused ⟨4, 9, .running, none, 0, 0⟩ true with
        markers.entries := [marker 1 false false .accepted (some 40)] } = true ∧
      (s .active ready.journal.slot true).journal.state ≠ .pausing := by decide

/-- A block is ready to go and the data gap is over. -/
theorem witness_choose_block :
    (linkAt .inRun (.rest true false) inRun).link.phase = .rest true false ∧ oldestSealed inRun = some (0, block 41) := by decide

/-- The command gap runs: READBACK and a commit wait; the boundary, a used-up run and the idle timer do not; PAUSED with and
without RECOVER; and the states in which nothing is chosen. -/
theorem witness_choose_waits :
    let owed (s : State) : State := { s with markers.entries := [marker 1 false false .accepted (some 40)] }
    let recover : State := { ready with journal.state := .paused, journal.slot := ⟨4, 9, .running, none, 0, 0⟩ }
    ready.link.phase = .rest true true ∧ inRun.link.phase = .rest true true ∧
      ({ ready with link.readback := some 5 } : State).link.readback.isSome = true ∧ commitOwed (owed ready) = true ∧
      commitOwed ready = false ∧ commitOwed (owed inRun) = true ∧ ({ inRun with link.run := none } : State).link.run = none ∧
      ({ inRun with link.idle := some ⟨1000, 5⟩ } : State).link.idle.isSome = true ∧
      ({ inRun with words.runIdleLimit := 0 } : State).words.runIdleLimit = 0 ∧ commitOwed (owed recover) = true ∧
      commitOwed recover = false ∧ recover.link.pauseReq = false ∧ recover.link.phase = .rest true true ∧
      ({ inRun with journal.state := .paused } : State).link.state = .inRun ∧
      (linkAt .fault (.rest true true) on).link.state ≠ .ready := by decide

/-- A link that is not at rest. -/
theorem witness_choose_elsewhere (g d : Bool) : waiting.link.phase ≠ .rest g d := Phase.noConfusion

/-- A DATA record that holds as many bytes as its length says, a record of another kind, and a block that is not full. -/
theorem witness_layouts :
    (∀ f, (staged 160).record.body = .data f → f.data.length = f.length) ∧
      (∀ f, (markStaged false).record.body = .data f → f.data.length = f.length) ∧
      (block 41).draft.payload.length ≤ payloadSize .b512 :=
  ⟨fun f h => by cases h; rfl, fun _ h => Body.noConfusion h, by decide⟩

theorem witness_transport :
    let s := window .endRun on
    s.pornLow = false ∧ s.link.phase = .window .endRun ∧ s.link.resetDue = false ∧
      transportFailure .endRun s.link.sentTag .respTimeout .respTimeout ∧
      s.link.sendCount + 1 ≤ s.words.retryLimit.toNat ∧
      (window .ident on).link.consecutive + 1 ≤ (window .ident on).link.initValues.retryLimit.toNat ∧
      (window .ident on).link.initExpired = false :=
  ⟨rfl, rfl, rfl, .inl ⟨rfl, rfl⟩, by decide, by decide, rfl⟩

theorem witness_transport_beyond :
    let s : State := { window .commit on with link.sendCount := 3 }
    s.words.retryLimit.toNat < s.link.sendCount + 1 ∧ transportFailure .commit s.link.sentTag .respTimeout .respTimeout ∧
      s.link.abandoning = false ∧ s.link.state ≠ .off ∧
      (window .ident { on with link.consecutive := 3 }).link.initValues.retryLimit.toNat < 3 + 1 :=
  ⟨by decide, .inl ⟨rfl, rfl⟩, rfl, by decide, by decide⟩

/-- A store that answers WRITE_RUN with ERR_RANGE (bit 8), and END_RUN with ERR_WRITE (bit 10). -/
theorem witness_status_error :
    shortTransport .writeRun 90 (response .writeRun 90 0x101 0x02) = none ∧
      shortStatusError .writeRun (response .writeRun 90 0x101 0x02) = some .respStatus ∧
      statusErrWrite (shortStatus (response .endRun 90 0x401 0x04)) = true ∧
      shortStatusError .readOne (response .readOne 90 0x101 0x02) = some .respStatus := by decide +kernel

theorem witness_taken :
    shortTransport .writeRun 90 (response .writeRun 90 0x3 0x03) = none ∧
      shortStatusError .writeRun (response .writeRun 90 0x3 0x03) = none ∧
      shortStatusError .endRun (response .endRun 91 0x1 0x04) = none ∧
      shortStatusError .commit (response .commit 91 0x1 0x04) = none ∧
      shortStatusError .setup (response .setup 91 0x1 0x02) = none ∧
      shortStatusError .status (response .status 91 0x1 0x02) = none ∧
      shortStatusError .readOne (response .readOne 91 0x1 0x02) = none := by decide +kernel

theorem witness_status_taken :
    let s (j : JournalState) (r : Option Resume) : State :=
      { window .status on with
        journal.state := j, journal.resume := r, journal.slot := ⟨4, 1, .running, none, 0, 0⟩ }
    (s .starting none).link.readback = none ∧ (s .starting none).journal.slot.status = .running ∧
      (s .faulted (some .paused)).journal.resume = some .paused ∧ (s .faulted (some .active)).journal.resume = some .active ∧
      (window .status on).journal.state = .active := by decide

theorem witness_identity :
    let v := on.link.initValues
    let good := longIdentity (identity 90 1048576 0xF 4 7)
    longTransport .ident 90 (identity 90 1048576 0xF 4 7) = none ∧ good = ⟨1048576, 0xF, 4, 7⟩ ∧
      good.sizes.getLsbD (blockSizeIndex v.blockSize) = true ∧ widthLines v.width ≤ good.maxWidth.toNat ∧
      (longIdentity (identity 90 0 0xF 4 7)).capacity = 0 ∧ (window .ident on).link.phase = .window .ident ∧
      ¬ widthLines v.width ≤ (longIdentity (identity 90 1048576 0xF 1 7)).maxWidth.toNat := by decide +kernel

/-- The init limit expires during an IDENT whose response window then ends, within the retry limit of 3 and beyond it. -/
theorem witness_ident_expired :
    let s (n : Nat) : State := { window .ident on with link.initExpired := true, link.consecutive := n }
    (s 2).link.phase = .window .ident ∧ (s 2).link.resetDue = false ∧ (s 2).link.initExpired = true ∧
      (s 2).link.consecutive + 1 ≤ (s 2).link.initValues.retryLimit.toNat ∧
      (s 3).link.initValues.retryLimit.toNat < (s 3).link.consecutive + 1 ∧
      transportFailure .ident (s 2).link.sentTag .respTimeout .respTimeout :=
  ⟨rfl, rfl, rfl, by decide, by decide, .inl ⟨rfl, rfl⟩⟩

theorem witness_init_limit :
    (linkAt .init .poll on).link.state = .init ∧ (linkAt .init .poll on).link.abandoning = false ∧
      (linkAt .init (.gap .ident) on).link.phase = .gap .ident ∧ (window .ident on).link.state = .init ∧
      on.link.state ≠ .init := by decide

theorem witness_block_out :
    oldestSealed inRun = some (0, block 41) ∧ inRun.link.phase = .rest true true ∧
      (linkAt .sending (.blockOut 41 200100) on).link.phase = .blockOut 41 200100 ∧
      ({ inRun with link.idle := some ⟨1000, 1000⟩ } : State).link.idle = some ⟨1000, 1000⟩ := by decide

theorem witness_token :
    waiting.pornLow = false ∧ waiting.link.phase = .token 41 200100 ∧ inFlight waiting = some (0, block 41) ∧
      waiting.link.attempts + 1 ≤ waiting.words.retryLimit.toNat ∧ readToken 5 false = .invalid ∧
      readToken 6 true = .invalid ∧
      ({ waiting with link.attempts := 3 } : State).words.retryLimit.toNat < 3 + 1 := by decide

theorem witness_busy :
    let s := linkAt .programming (.busyToken 41 200100 250) inRun
    s.link.phase = .busyToken 41 200100 250 ∧ s.link.state = .programming ∧ s.link.run = some ⟨200100, 12, 12, 90⟩ ∧
      (linkAt .recovering (.busyToken 41 200100 250) inRun).link.state = .recovering ∧
      (linkAt .ending (.busyCmd .endRun 250) inRun).link.phase = .busyCmd .endRun 250 ∧
      (linkAt .ending (.busyCmd .endRun 250) inRun).link.abandoning = false ∧
      ({ s with link.run := some ⟨200100, 12, 0, 90⟩ } : State).link.run = some ⟨200100, 12, 0, 90⟩ := by decide

/-- A commit of the markers of epochs 1 and 2 is busy. -/
def committing (ms : List Marker) : State :=
  { linkAt .committing (.busyCmd .commit 250) ready with
    markers := ⟨ms, 0, 0, some 2⟩
    space.recordedHead := some ⟨0, 100⟩ }

theorem witness_commit :
    let ms := [marker 1 true false .accepted (some 39), marker 2 false false .accepted (some 40),
      marker 3 false false .recorded none]
    (committing ms).link.phase = .busyCmd .commit 250 ∧ (committing ms).space.recordedHead = some ⟨0, 100⟩ ∧
      ((committing ms).markers.entries.filter fun m => decide (m.epoch ≤ 2)).getLast? =
        some (marker 2 false false .accepted (some 40)) ∧
      (∀ m ∈ (committing ms).markers.entries.filter (fun m => decide (m.epoch ≤ 2)), m.final = false) ∧
      (committing ms).held = none ∧
      (holding (.fence 1) none (committing ms)).held = some ⟨wr 0x10000 8, .fence 1, none⟩ := by decide

theorem witness_commit_final :
    let s : State := { committing [marker 2 false true .accepted (some 40)] with
      journal.slot := ⟨40, 2, .running, none, 0, 0⟩ }
    (s.markers.entries.filter fun m => decide (m.epoch ≤ 2)).getLast? = some (marker 2 false true .accepted (some 40)) ∧
      s.journal.slot.status = .running ∧ s.journal.slot.code = 2 ∧ s.held = none := by decide

/-- Commit frees an entry while a trigger write waits for MARKER; frees none; and ends the generation with no STOP running. -/
theorem witness_commit_marker :
    let ms := marker 2 false false .accepted (some 40) :: List.replicate 15 (marker 3 false false .recorded none)
    let s := holding (.marker 0) (some ⟨100000, 5⟩) (committing ms)
    s.held = some ⟨wr 0x10000 8, .marker 0, some ⟨100000, 5⟩⟩ ∧
      (s.markers.entries.filter fun m => decide (2 < m.epoch)).length < 16 ∧
      ((committing [marker 3 false false .recorded none]).markers.entries.filter fun m => decide (m.epoch ≤ 2)) = [] ∧
      (committing [marker 2 false true .accepted (some 40)]).journal.slot.status ≠ .running := by decide

theorem witness_commit_space :
    ({ committing [] with markers.commitEpoch := none } : State).markers.commitEpoch = none := rfl

/-- A block of 512 zero bytes is read back, its CRC wrong; and a READBACK of address 5 awaits it. -/
def readingBack : State :=
  { linkAt .reading .readData on with
    link.readback := some 5
    link.setupSize := .b512
    journal.slot := ⟨9, 8, .running, none, 0, 0⟩ }

theorem witness_readback :
    readingBack.link.phase = .readData ∧ readingBack.link.readback = some 5 ∧
      readingBack.journal.slot.status = .running ∧
      (List.replicate 512 (0 : Byte)).length = blockBytes readingBack.link.setupSize ∧
      blockInGood .one ⟨false, List.replicate 512 0, [0], [true]⟩ = false := by decide +kernel

/-- Division leaves zero of zero bits. -/
theorem crcBits_zeros {n : Nat} (poly : BitVec n) (k : Nat) : crcBits poly 0 (List.replicate k false) = 0 := by
  unfold crcBits
  induction k with
  | zero => rfl
  | succ k ih => rw [List.replicate_succ, List.foldl_cons, show crcStep poly 0 false = 0 by simp [crcStep]]; exact ih

/-- The first 508 bytes of a block: four of all ones, which empty the register of the CRC-32, and zeros. -/
def front : List Byte := List.replicate 4 0xFF ++ List.replicate 504 0

theorem crc32_front : crc32 front = 0xFFFFFFFF := by
  have bits : front.flatMap bitsLsb = List.replicate 32 true ++ List.replicate 4032 false := by
    unfold front
    rw [List.flatMap_append, List.flatMap_replicate, List.flatMap_replicate,
      show bitsLsb 0xFF = List.replicate 8 true by decide, show bitsLsb 0 = List.replicate 8 false by decide,
      List.flatten_replicate_replicate, List.flatten_replicate_replicate]
  unfold crc32
  rw [bits, crcBits, List.foldl_append]
  rw [show (List.replicate 32 true).foldl (crcStep 0x04C11DB7#32) (BitVec.allOnes 32) = 0 by decide +kernel]
  rw [show (List.replicate 4032 false).foldl (crcStep 0x04C11DB7#32) 0 = 0 from crcBits_zeros _ _]
  decide +kernel

/-- A block in of 512 bytes on one line, its lines good. -/
def goodLines (bytes : List Byte) : BlockIn := ⟨true, bytes, [crc16 (lineBits .one 0 bytes)], [true]⟩

theorem witness_readback_done :
    let b := goodLines (front ++ List.replicate 4 0xFF)
    b.bytes.length = blockBytes readingBack.link.setupSize ∧ blockInGood readingBack.link.width b = true ∧
      trailerAgrees 512 b.bytes = true := by
  refine ⟨by decide +kernel, by simp [blockInGood, goodLines, widthLines, readingBack, linkAt, on, State.reset, Link.por], ?_⟩
  unfold trailerAgrees
  rw [show (goodLines (front ++ List.replicate 4 0xFF)).bytes.take (512 - 4) = front by decide +kernel, crc32_front]
  decide +kernel

theorem witness_readback_mismatch :
    let b := goodLines (front ++ List.replicate 4 0)
    blockInGood readingBack.link.width b = true ∧ trailerAgrees 512 b.bytes = false := by
  refine ⟨by simp [blockInGood, goodLines, widthLines, readingBack, linkAt, on, State.reset, Link.por], ?_⟩
  unfold trailerAgrees
  rw [show (goodLines (front ++ List.replicate 4 0)).bytes.take (512 - 4) = front by decide +kernel, crc32_front]
  decide +kernel

/-! ## The Space Tracker -/

theorem witness_positions :
    chainFrom chain = some chain ∧ chainGood chain = true ∧ onChain chain ⟨0, 110⟩ = true ∧ onChain chain ⟨0, 111⟩ = true ∧
      chain[0]? = some ⟨true, 200000, 112, false, true⟩ ∧ onChain chain ⟨1, 1999⟩ = true ∧
      chain[1]? = some ⟨true, 300000, 2000, true, false⟩ := by decide

/-- R102: the last block of entry 0 is followed by entry 1, and the last block of the chain by entry 0. -/
theorem test_positions_advance :
    advance chain 1 ⟨0, 111⟩ = ⟨1, 0⟩ ∧ advance chain 1 ⟨1, 1999⟩ = ⟨0, 0⟩ ∧ advance chain 2 ⟨1, 1999⟩ = ⟨0, 1⟩ ∧
      storeAddress chain ⟨0, 111⟩ = 200111 := by decide

/-! ## The Management Port and the commands -/

theorem witness_port :
    portOpen on = true ∧ portOpen { on with mgmtIgnore := true } = false ∧ managementRow .stop = true ∧
      badFrameWellFormed [] = true ∧ on.journal.state ≠ .stopped ∧ lockedWord 0x1BF = true ∧
      State.reset.journal.state = .stopped ∧ portOpen State.reset = true ∧ (255 : Word).toNat ≤ 255 := by decide

/-- A READ frame of the word 0x0055 that ends a bit early is a bad frame, and one of two words is none (R202). -/
theorem witness_read_frames :
    badFrameWellFormed (bitsOf 0x96#8 ++ bitsOf 0x0055#16 ++ List.replicate 31 true) = true ∧
      24 < (bitsOf 0x96#8 ++ bitsOf 0x0055#16 ++ [true]).length ∧
      badFrameWellFormed (bitsOf 0x96#8 ++ bitsOf 0x0055#16 ++ List.replicate 64 true) = false := by decide +kernel

theorem witness_status_words :
    statusView { on with argWord := 5 } = statusView on ∧ statusView inRun ≠ statusView on := by decide

/-- A STOPPED journal with the chain above in the extent entries. -/
def stopped : State :=
  { State.reset with extents := (State.reset.extents.set 0 ⟨true, 200000, 112, false, true⟩).set 1
                                  ⟨true, 300000, 2000, true, false⟩ }

theorem witness_start :
    portOpen stopped = true ∧ slotFreed stopped = true ∧ chainFrom stopped.extents.toList = some chain ∧
      chainGood chain = true ∧ keptPositionsGood chain stopped.space = true ∧
      chainFrom State.reset.extents.toList = none ∧ on.journal.state ≠ .stopped ∧ slotFreed on = true ∧
      chainGood [⟨true, 0, 0, true, false⟩] = false ∧
      keptPositionsGood chain { Space.por with head := ⟨2, 0⟩ } = false := by decide

theorem witness_commands :
    let s (j : JournalState) : State := { on with journal.state := j }
    portOpen on = true ∧ slotFreed (s .paused) = true ∧ (s .paused).journal.state = .paused ∧
      (s .draining).journal.state = .draining ∧ (s .faulted).journal.state = .faulted ∧ assembling on = none ∧
      assembling (framing 8 []) = some (2, draft 8) := by decide

theorem witness_resume_beside_pause :
    let s : State := { on with journal.state := .pausing, journal.slot := ⟨4, 4, .running, none, 0, 0⟩ }
    s.journal.state = .pausing ∧ s.journal.slot.status = .running ∧ s.journal.slot.code = 4 := by decide

theorem witness_halt :
    on.link.state = .off ∧ inRun.link.state ≠ .off ∧ inRun.link.phase ≠ .settle ∧
      (∀ c, inRun.link.phase ≠ .frame c ∧ inRun.link.phase ≠ .window c) ∧
      (window .commit inRun).link.phase = .window .commit ∧
      (linkAt .sending (.blockOut 41 200100) inRun).link.phase = .blockOut 41 200100 :=
  ⟨rfl, by decide, by decide, fun _ => ⟨Phase.noConfusion, Phase.noConfusion⟩, rfl, rfl⟩

/-- The link is INIT and the settle time of an earlier abandonment runs (R141, R168). -/
theorem witness_halt_settling :
    let s : State := { linkAt .init .settle on with link.abandoning := true }
    s.link.state ≠ .off ∧ s.link.phase = .settle := by decide

theorem witness_mark :
    capturing on = true ∧ on.capture.epochCounter ≠ 4294967295 ∧ 80 ≤ freeBytes on ∧ 3 ≤ freeSlots on ∧
      on.rtq.voids = [] ∧ heldWaits on = false ∧ on.markers.entries.length < 16 ∧ capturing State.reset = false := by decide

theorem witness_reclaim :
    let s (n : Word) : State := { ready with argWord := n }
    (s 78).argWord.toNat ≠ 0 ∧ (s 78).argWord.toNat ≤ (s 78).space.durableUsed ∧
      (s 79).space.durableUsed < (s 79).argWord.toNat ∧ (s 0).argWord.toNat = 0 ∧ slotFreed ready = true ∧
      ({ ready with journal.slot := ⟨40, 2, .running, none, 0, 0⟩ } : State).journal.slot.code = 2 := by decide

theorem witness_busy_slot :
    let s : State := { on with journal.slot := ⟨40, 8, .running, none, 0, 0⟩ }
    portOpen s = true ∧ s.journal.slot.status = .running ∧ s.journal.slot.code ≠ 4 ∧ s.journal.slot.code ≠ 2 ∧
      badCodeWellFormed 0 = true ∧ badCodeWellFormed 11 = true := by decide

/-! ## Worked examples of the spec, one step each, and published check values of its check codes -/

/-- The nine bytes "123456789". -/
def nine : List Byte := [0x31, 0x32, 0x33, 0x34, 0x35, 0x36, 0x37, 0x38, 0x39]

/-- The catalogued check values of CRC-8 (polynomial 07), CRC-16 (1021, initial 0) and CRC-32. -/
theorem test_check_values :
    crc8 (nine.flatMap bitsOf) = 0xF4 ∧ crc16 (nine.flatMap bitsOf) = 0x31C3 ∧ crc32 nine = 0xCBF43926 := by
  decide +kernel

/-- R206: the MARK record of chapter 2's trigger write, record 204. -/
theorem test_mark_bytes :
    recordBytes ⟨204, .mark ⟨12, 42, .trigger 1, false, false⟩⟩ =
      [0x04, 0, 42, 0, 204, 0, 0, 0, 12, 0, 0, 0, 1, 0, 0, 0] := by decide +kernel

/-- R206: a GAP record of 3 lost writes, 24 bytes, MIXED, label 9. -/
theorem test_gap_bytes :
    recordBytes ⟨258, .gap ⟨9, true, 0x2000000000, 0x0000020010, 3, 24⟩⟩ =
      [0x03, 1, 3, 0, 2, 1, 0, 0, 0, 0, 0, 0, 0x20, 9, 0x10, 0, 2, 0, 0, 0, 24, 0, 0, 0] := by decide +kernel

/-- R207: the header of a TIMER block of generation 8, serial 41, one record of 8 bytes, epoch 1. -/
theorem test_header_bytes :
    headerBytes (block 41) =
      [8, 0, 0, 0, 41, 0, 0, 0, 8, 0, 1, 0, 0, 0, 0, 0, 1, 0, 0, 0, 3, 0, 0, 0, 0, 0, 0, 0] := by decide +kernel

/-- R118: the byte 0x81 on LDAT3 and LDAT0 at width 4, the high group first, and on LDAT0 at width 1. -/
theorem test_line_bits :
    lineBits .four 3 [0x81] = [true, false] ∧ lineBits .four 0 [0x81] = [false, true] ∧
      lineBits .one 0 [0x81] = [true, false, false, false, false, false, false, true] := by decide +kernel

/-- R201: a WRITE frame to the flag word. -/
theorem test_write_frame :
    frameKind (bitsOf 0x69#8 ++ bitsOf 0x0040#16 ++ bitsOf 0xFF#32) = .write 0x40 0xFF := by decide +kernel

/-- Chapter 2's region 0 and trigger 1, with a number of the next record, an open record and staging. -/
def burst (seq : Word) (o : Option OpenRec) (q : List Staged) : State :=
  { State.reset with
    journal.state := .active
    regions := State.reset.regions.set 0 ⟨true, 0x100, 0x100, .stall, 0, true, 7⟩
    triggers := State.reset.triggers.set 1 ⟨true, 0x200000, false⟩
    capture := ⟨seq, 12, o, none⟩
    staging.queue := q }

/-- Record 200 as A1 to A3 leave it. -/
def record200 : Staged := ⟨⟨200, .data ⟨7, 1048576, 84, true, none, List.replicate 84 0x5A⟩⟩, 0⟩

/-- A3 merges into record 200: 84 bytes, 104 in store (chapter 2). -/
theorem test_upstreamWrite_A3 :
    ((next (exec (.upstreamWriteTaken (wr 1048640 20)) (burst 201 (some ⟨200, 0, 1048576, 64⟩)
      [⟨⟨200, .data ⟨7, 1048576, 64, true, none, List.replicate 64 0x5A⟩⟩, 0⟩]))).map
        fun t => (t.staging.queue == [record200], occupiedBytes t)) = some (true, 104) := by decide +kernel

/-- A4 forms the MASKED record 201 of 64 store bytes, and no record is open after it (chapter 2). -/
theorem test_upstreamWrite_A4 :
    ((next (exec (.upstreamWriteTaken
      ⟨1048660, 0, (List.range 12).map fun i => ⟨0x5A, i < 4 || 8 ≤ i⟩⟩)
      (burst 201 (some ⟨200, 0, 1048576, 84⟩) [record200]))).map fun t =>
        (t.staging.queue.getLast?.map fun e => (e.record.seq, recordSize e.record, (recordBytes e.record).drop 16 |>.take 2),
          t.capture.openRec)) = some (some (201, 64, [0x0F, 0x0F]), none) := by decide +kernel

/-- T places the MARK record 204 with tag 42, and the epoch counter becomes 13 (chapter 2). -/
theorem test_upstreamWrite_T :
    ((next (exec (.upstreamWriteTaken ⟨2097152, 0, [⟨42, true⟩, ⟨0, true⟩]⟩) (burst 204 none []))).map fun t =>
      (t.staging.queue, t.capture.epochCounter, t.ports.downstream.length)) =
        some ([⟨⟨204, .mark ⟨12, 42, .trigger 1, false, false⟩⟩, 0⟩], 13, 1) := by decide +kernel

/-- The ERROR of chapter 1's second response consumes the entry of W2 and forms the pending VOID of record 41. -/
theorem test_writeResponse_error :
    ((next (exec (.downstreamWriteResponse 0 .error)
      { on with rtq := ⟨1004, 1001, [⟨some 1001, 41, 65600, 64, false⟩, ⟨some 1003, 42, 131072, 8, false⟩], []⟩ })).map
        fun t => t.rtq) = some ⟨1004, 1002, [⟨some 1003, 42, 131072, 8, false⟩], [⟨41, 65600, 64⟩]⟩ := by decide +kernel

/-- The VOID enters as record 43 and VOID_RECORDED is raised (chapter 1). -/
theorem test_admitPendingVoid :
    ((next (exec .admitPendingVoid { on with rtq.voids := [⟨41, 65600, 64⟩], capture.seqCounter := 43 })).map fun t =>
      (t.staging.queue, t.events.flags, counterValue .voids t)) =
        some ([⟨⟨43, .void ⟨41, 65600, 64⟩⟩, 0⟩], 0x0800, 1) := by decide +kernel

/-- The initialisation of chapter 7: RESET_STORE carries tag 17 and the counter goes to 18. -/
theorem test_idlePeriodEnd :
    ((next (exec .linkIdlePeriodEnd { linkAt .init .idlePeriod on with link.tagCounter := 17 })).map fun t =>
      (t.link.sentTag, t.link.tagCounter, t.link.phase)) = some (17, 18, .frame .resetStore) := by decide +kernel

/-- A long response with a wrong CRC-16 makes IDENT go out again, RETRIES and LINK_ERRORS rising by one (chapter 7). -/
theorem test_identResponse_crc :
    ((next (exec (.identResponse (identity 90 1048576 0xF 4 7 ^^^ 0x100)) (window .ident on))).map fun t =>
      (t.link.phase, t.link.consecutive, counterValue .retries t, counterValue .linkErrors t)) =
        some (.gap .ident, 1, 1, 1) := by decide +kernel

/-- Code, tag, block address and count field of the frames sent. -/
def sentFields (t : State) : List (BitVec 4 × Byte × Word × Byte) := t.ports.linkOut.map fun o => match o with
  | .frame f => (f.extractLsb' 58 4, f.extractLsb' 50 8, f.extractLsb' 18 32, f.extractLsb' 10 8)
  | .block _ _ | .cut => (0, 0, 0, 0)

/-- WRITE_RUN of chapter 8: start 200,100, count field 12. -/
theorem test_commandGapEnd_writeRun :
    (next (exec .commandGapEnd ready)).map sentFields = some [(0x5, 90, 200100, 12)] ∧
      ((next (exec .commandGapEnd ready)).map fun t => t.link.run) = some (some ⟨200100, 12, 12, 90⟩) := by decide +kernel

/-- CRC_BAD on a block: the detail of chapter 8's example. -/
theorem test_crcBad :
    ((next (exec .crcBad waiting)).map fun t =>
      (t.link.lastError, t.link.attempts, t.link.phase, counterValue .retries t)) =
      some (some ⟨.tokenCrcBad, .writeRun, 90, some 41, some 200100, 1, .tokenWait, .active, .recovery⟩, 1, .gap .endRun, 1) := by
  decide +kernel

/-- ACCEPT: the head moves to (0, 101), and the run remaining is 11 (chapter 8). -/
theorem test_accept :
    ((next (exec .accept waiting)).map fun t => (t.space.head, t.link.run.map (·.remaining), t.link.phase)) =
      some (⟨0, 101⟩, some 11, .busyToken 41 200100 250) := by decide +kernel

/-- ACCEPT of block 303 in the example of chapter 6: used reaches the capacity of 64 and STORE_FULL alone is raised. -/
theorem test_accept_full :
    ((next (exec .accept
      { waiting with
        space := ⟨[⟨true, 100000, 40, false, true⟩, ⟨true, 500000, 24, true, false⟩], ⟨0, 19⟩, ⟨0, 12⟩, ⟨0, 20⟩, ⟨0, 0⟩, 63, 56,
          none, false⟩
        words.lowSpace := 16 })).map fun t => (t.space.head, t.space.used, t.events.flags)) =
      some (⟨0, 20⟩, 64, 0x0040) := by decide +kernel

/-- RECLAIM beside a running STOP is answered in the side record (chapter 9). -/
theorem test_reclaim_side :
    ((next (exec .reclaim
      { ready with
        journal := ⟨.draining, none, 12, 44, ⟨44, 2, .running, none, 0, 0⟩, none, none⟩
        argWord := 10 })).map fun t =>
        (t.journal.slot.status, t.journal.side.map fun r => (r.number, r.code, r.status), t.space.tail)) =
      some (.running, some (45, 7, .done), ⟨0, 22⟩) := by decide +kernel

/-- MARK in a DRAINING journal is refused BAD_STATE (chapter 9). -/
theorem test_mark_refused :
    ((next (exec (.mark 1) { on with journal.state := .draining })).map fun t => (t.journal.slot.status, t.journal.slot.reason))
      = some (.refused, some .badState) := by decide +kernel

/-- A value above its range is taken as the limit (R134). -/
theorem test_registerWrite_busyLimit :
    ((next (exec (.registerWrite 0x15 5000) on)).map fun t => t.words.busyLimit) = some 2000 := by decide +kernel

/-- The low 3 bits of a trigger address are discarded (R7). -/
theorem test_lockedConfig_trigger :
    ((next (exec (.lockedConfigWrite 0x148 0x1234567F) State.reset)).map fun t => t.triggers[(2 : Fin 4)].addr) =
      some 0x0012345678 := by decide +kernel

/-- Word 1 of region entry 0: address bits 39 to 32, enabled, SHED, coalesce, label (R205). -/
theorem test_lockedConfig_region :
    ((next (exec (.lockedConfigWrite 0x101 0x00070701) State.reset)).map fun t => t.regions[(0 : Fin 16)]) =
      some ⟨true, 0x0100000, 0, .shed, 0, true, 7⟩ := by decide +kernel

/-- R56: a low watermark of 60,000 written at empty staging re-arms at the next rise; one that stands there does not, since
occupancy has not fallen below it. -/
theorem test_low_watermark_written :
    let s : State := { on with staging.highArmed := false }
    let armed (o : Option State) : Option Bool := (o.bind fun t => next (exec .marknRequest t)).map fun t => t.staging.highArmed
    armed (next (exec (.registerWrite 0x1A 60000) s)) = some true ∧
      armed (some { s with words.lowWatermark := 60000 }) = some false := by decide +kernel

/-- R56, R196: with a low watermark above the high one and no write, the first rise raises and disarms; without a fall neither of
the next two re-arms or raises. -/
theorem test_rises_without_fall :
    let s : State := { on with words.highWatermark := 0, words.lowWatermark := 60000 }
    let rise (s : State) : State := (next (exec .marknRequest { s with events.flags := 0 })).getD s
    let seen (t : State) : Bool × Bool := (t.staging.highArmed, t.events.flags.getLsbD (eventNumber .stagingHigh))
    (seen (rise s), seen (rise (rise s)), seen (rise (rise (rise s)))) = ((false, true), (false, false), (false, false)) := by
  decide +kernel

/-- The words of journal, head and link: ACTIVE; offset 100 of entry 0 at 200,100; READY with the tag counter at 90 (R205). -/
theorem test_status_words :
    readWord ready 0x30 = 2 ∧ readWord ready 0xC0 = 100 ∧ readWord ready 0xC1 = 200100 ∧ readWord ready 0xE0 = 0x5A000002 := by
  decide +kernel

/-- HALT forwards a held write and drops markers, raising MARK_DROPPED and COMMAND_DONE alone (R186, R197). -/
theorem test_halt :
    ((next (exec .halt (holding (.fence 1) none { on with markers.entries := [marker 1 true false .recorded none] }))).map
      fun t => (t.held.isNone, t.ports.downstream.length, t.events.flags, t.journal.state)) =
      some (true, 1, 0x8004, .stopped) := by decide +kernel

/-- The response that an abandonment lets end is discarded unchecked, and RESET_STORE follows (R128). -/
theorem test_discarded_response :
    ((next (exec (.commitResponse 0) { window .commit on with link.resetDue := true })).map fun t =>
      (t.link.phase, t.link.lastStatus.isNone, counterValue .linkErrors t)) = some (.frame .resetStore, true, 0) := by
  decide +kernel

/-- HALT while an earlier abandonment settles, the link in INIT again: RESET_STORE follows the settle time (R128, R141). -/
theorem test_halt_settling :
    let t := next (exec .halt { linkAt .init .settle on with link.abandoning := true })
    (t.map fun t => (t.link.state, t.link.resetDue)) = some (.off, true) ∧
      ((t.bind fun t => next (exec .resetSettleEnd t)).map fun u => (u.link.phase, u.ports.linkOut.length)) =
        some (.frame .resetStore, 1) := by decide +kernel

/-- A block on its way out is cut by RESET_STORE at HALT (R128). -/
theorem test_halt_cuts :
    ((next (exec .halt (linkAt .sending (.blockOut 41 200100) on))).map fun t => (t.ports.linkOut.length, t.link.phase)) =
      some (2, .frame .resetStore) := by decide +kernel

/-- Chapter 7's init: a transport error beyond the retry limit of 3 leaves the count at 4 (R137). -/
theorem test_initTransport_beyond :
    ((next (exec .respTimeout (window .ident { on with link.consecutive := 3 }))).map fun t => (t.link.state, t.link.consecutive)) =
      some (.fault, 4) := by decide +kernel

/-- READ of the argument word 0x0021 shifts it out, most significant bit first (R201). -/
theorem test_read_frame :
    ((next (exec (.mgmtBadFrame (bitsOf 0x96#8 ++ bitsOf 0x0021#16 ++ List.replicate 32 false)) { on with argWord := 0x80000001 })).map
      fun t => (t.ports.mgmtOut, counterValue .mgmtBadFrames t)) =
      some ([[true] ++ List.replicate 30 false ++ [true]], 0) := by decide +kernel

end Sys2Proof.Tests
end

section
/-! PROOFS. The Marker List after power-on reset (R96): what the POR state holds of the markers, counters and events, that
PORN_FALL leaves it, and that a happening while PORn is low changes nothing. -/

namespace Sys2Proof.Machine

/-! ## The POR state -/

/-- POR empties the Marker List, sets the durable pair to 0, and leaves the commit epoch absent (R96). -/
@[simp] theorem porState_markers (s : State) : (porState s).markers = ⟨[], 0, 0, none⟩ := rfl

/-- POR clears every event flag and enable (R190). -/
@[simp] theorem porState_events (s : State) : (porState s).events = ⟨0, 0, 0⟩ := rfl

/-- POR sets every counter to 0 (R199). -/
@[simp] theorem counterValue_porState (c : Counter) (s : State) : counterValue c (porState s) = 0 := by
  cases c <;> rfl

/-- PORn is low after its fall. -/
@[simp] theorem porState_pornLow (s : State) : (porState s).pornLow = true := rfl

/-! ## The level of PORn and the two commands -/

/-- PORN_FALL while PORn is high forwards a held write, cuts the link's frame, and leaves the POR state (R3, R169). -/
theorem exec_pornFall_high {s : State} (h : s.pornLow = false) :
    exec .pornFall s = .next (porState (noteCut (forwardHeld s))) := by
  change execPornFall s = _
  simp [execPornFall, h]

/-- A happening of the live Bridge changes nothing while PORn is low. -/
theorem whenLive_low {s : State} (f : State → State) (h : s.pornLow = true) : whenLive f s = .next s := by
  simp [whenLive, h]

/-- MARKn is not sampled while PORn is low (R96). -/
theorem exec_marknRequest_low {s : State} (h : s.pornLow = true) : exec .marknRequest s = .next s :=
  whenLive_low pinRequest h

/-! ## The statement -/

/-- Settles O17: PORN_FALL leaves the POR state, whose fields are those of R96, and MARKN_REQUEST waits on the level of PORn. -/
theorem markerListAfterPor : Obligations.MarkerListAfterPor := by
  constructor
  case left =>
    intro s high
    exact ⟨_, exec_pornFall_high high, porState_markers _, counterValue_porState .marksLost _,
      congrArg Events.flags (porState_events _), congrArg Events.enables (porState_events _), porState_pornLow _⟩
  case right => exact fun _ low => exec_marknRequest_low low

end Sys2Proof.Machine
end

section
/-! PROOFS. The positions of the journal space (R102). The blocks of a chain are numbered from 0 by `linearOf`: a position on the
chain is found again from its number, and one advance raises the number by 1 modulo the capacity. So the one go around the ring
of `advance` is a repetition of `advanceOne`. -/

namespace Sys2Proof.Machine

/-! ## Entries and counts -/

/-- The count of a position whose entry lies in the chain. -/
theorem entryCount_of_getElem? {ch : List Extent} {p : Pos} {e : Extent} (he : ch[p.entry]? = some e) :
    entryCount ch p = e.count.toNat := by simp [entryCount, he]

@[simp] theorem entryCount_cons_zero (e : Extent) (es : List Extent) (k : Nat) :
    entryCount (e :: es) ⟨0, k⟩ = e.count.toNat := rfl

@[simp] theorem entryCount_cons_succ (e : Extent) (es : List Extent) (i k : Nat) :
    entryCount (e :: es) ⟨i + 1, k⟩ = entryCount es ⟨i, k⟩ := by simp [entryCount]

theorem onChain_iff_lt (ch : List Extent) (p : Pos) : onChain ch p = true ↔ p.offset < entryCount ch p := by
  simp [onChain]

/-- A position on the chain has an entry of the chain, and an offset below its count. -/
theorem onChain_iff (ch : List Extent) (p : Pos) :
    onChain ch p = true ↔ ∃ e, ch[p.entry]? = some e ∧ p.offset < e.count.toNat := by
  cases he : ch[p.entry]? with
  | none => simp [onChain, entryCount, he]
  | some e => simp [onChain, entryCount_of_getElem? he]

/-- The number of an entry of the chain that holds a position is below the chain's length. -/
theorem entry_lt_length_of_onChain {ch : List Extent} {p : Pos} (hp : onChain ch p = true) : p.entry < ch.length := by
  obtain ⟨e, he, -⟩ := (onChain_iff ch p).1 hp
  exact (List.getElem?_eq_some_iff.1 he).1

/-- An entry of a chain is marked last exactly when the chain ends with it (R99). -/
theorem last_iff_of_chainFrom {table ch : List Extent} {i : Nat} {e : Extent} (hch : chainFrom table = some ch)
    (he : ch[i]? = some e) : e.last = true ↔ i + 1 = ch.length := by
  induction table generalizing ch i with
  | nil => simp [chainFrom] at hch
  | cons a rest ih =>
    cases ha : a.last with
    | true =>
      obtain rfl : [a] = ch := by simpa [chainFrom, ha] using hch
      cases i with
      | zero =>
        obtain rfl : a = e := by simpa using he
        simp [ha]
      | succ i => simp at he
    | false =>
      obtain ⟨es, hes, rfl⟩ : ∃ es, chainFrom rest = some es ∧ a :: es = ch := by simpa [chainFrom, ha] using hch
      cases i with
      | zero =>
        obtain rfl : a = e := by simpa using he
        have nonempty : es ≠ [] := by
          rintro rfl
          cases rest with
          | nil => simp [chainFrom] at hes
          | cons b bs => cases hb : b.last <;> simp [chainFrom, hb] at hes
        simpa [ha] using nonempty
      | succ i => simpa using ih hes (by simpa using he)

/-- An entry of a chain that passes its checks has at least one block, and its last block's address is below 2^32 (R100). -/
theorem extent_bounds_of_chainGood {ch : List Extent} {i : Nat} {e : Extent} (good : chainGood ch = true)
    (he : ch[i]? = some e) : 0 < e.count.toNat ∧ e.start.toNat + e.count.toNat - 1 ≤ 4294967295 := by
  simp only [chainGood, Bool.and_eq_true, List.all_eq_true] at good
  have entryGood := good.1 e (List.mem_of_getElem? he)
  simp only [extentGood, Bool.and_eq_true, bne_iff_ne, decide_eq_true_eq] at entryGood
  omega

/-! ## One advance -/

theorem advanceOne_within {ch : List Extent} {p : Pos} (h : p.offset + 1 < entryCount ch p) :
    advanceOne ch p = ⟨p.entry, p.offset + 1⟩ := by simp [advanceOne, h]

theorem advanceOne_nextEntry {ch : List Extent} {p : Pos} (h : ¬ p.offset + 1 < entryCount ch p)
    (hasNext : p.entry + 1 < ch.length) : advanceOne ch p = ⟨p.entry + 1, 0⟩ := by simp [advanceOne, h, hasNext]

theorem advanceOne_wrap {ch : List Extent} {p : Pos} (h : ¬ p.offset + 1 < entryCount ch p)
    (last : ¬ p.entry + 1 < ch.length) : advanceOne ch p = ⟨0, 0⟩ := by simp [advanceOne, h, last]

/-- Offset 0 of each entry of a chain that passes its checks lies on it. -/
theorem onChain_entryStart {ch : List Extent} {i : Nat} (good : chainGood ch = true) (hi : i < ch.length) :
    onChain ch ⟨i, 0⟩ = true := by
  have he : ch[i]? = some ch[i] := List.getElem?_eq_getElem hi
  exact (onChain_iff ch ⟨i, 0⟩).2 ⟨ch[i], he, (extent_bounds_of_chainGood good he).1⟩

/-- An advance keeps a position on the chain. -/
theorem onChain_advanceOne {ch : List Extent} {p : Pos} (good : chainGood ch = true) (hp : onChain ch p = true) :
    onChain ch (advanceOne ch p) = true := by
  have hlen := entry_lt_length_of_onChain hp
  by_cases within : p.offset + 1 < entryCount ch p
  · rw [advanceOne_within within]
    exact (onChain_iff_lt ch _).2 within
  · by_cases hasNext : p.entry + 1 < ch.length
    · rw [advanceOne_nextEntry within hasNext]
      exact onChain_entryStart good hasNext
    · rw [advanceOne_wrap within hasNext]
      exact onChain_entryStart good (by omega)

/-! ## The number of a position -/

@[simp] theorem chainCapacity_cons (e : Extent) (es : List Extent) :
    chainCapacity (e :: es) = e.count.toNat + chainCapacity es := by simp [chainCapacity]

@[simp] theorem linearOf_cons_zero (e : Extent) (es : List Extent) (k : Nat) : linearOf (e :: es) ⟨0, k⟩ = k := by
  simp [linearOf, chainCapacity]

@[simp] theorem linearOf_cons_succ (e : Extent) (es : List Extent) (i k : Nat) :
    linearOf (e :: es) ⟨i + 1, k⟩ = e.count.toNat + linearOf es ⟨i, k⟩ := by simp [linearOf, Nat.add_assoc]

/-- The first block of the chain has the number 0. -/
@[simp] theorem linearOf_origin (ch : List Extent) : linearOf ch ⟨0, 0⟩ = 0 := by simp [linearOf, chainCapacity]

/-- The number of the first block of an entry is the number of the first block of the entry before, plus its count. -/
theorem linearOf_nextEntry {ch : List Extent} {p : Pos} (hp : p.entry < ch.length) :
    linearOf ch ⟨p.entry + 1, 0⟩ = linearOf ch ⟨p.entry, 0⟩ + entryCount ch p := by
  obtain ⟨i, k⟩ := p
  induction ch generalizing i with
  | nil => simp at hp
  | cons e es ih =>
    cases i with
    | zero => simp
    | succ i => simp [ih i (by simpa using hp), Nat.add_assoc]

/-- The blocks up to the end of the last entry are all the blocks of the chain. -/
theorem linearOf_length (ch : List Extent) : linearOf ch ⟨ch.length, 0⟩ = chainCapacity ch := by simp [linearOf]

/-- The number of a position is the number of the first block of its entry, plus its offset. -/
theorem linearOf_eq_start_add (ch : List Extent) (p : Pos) : linearOf ch p = linearOf ch ⟨p.entry, 0⟩ + p.offset := by
  simp [linearOf]

/-- A position on the chain has a number below the capacity. -/
theorem linearOf_lt_chainCapacity {ch : List Extent} {p : Pos} (hp : onChain ch p = true) :
    linearOf ch p < chainCapacity ch := by
  obtain ⟨i, k⟩ := p
  induction ch generalizing i with
  | nil => simp [onChain, entryCount] at hp
  | cons e es ih =>
    rw [onChain_iff_lt] at hp
    cases i with
    | zero =>
      simp only [entryCount_cons_zero] at hp
      simp only [linearOf_cons_zero, chainCapacity_cons]
      omega
    | succ i => simpa using ih i ((onChain_iff_lt es ⟨i, k⟩).2 (by simpa using hp))

/-- A position on the chain is found again from its number. -/
theorem positionFrom_linearOf {ch : List Extent} {p : Pos} (first : Nat) (hp : onChain ch p = true) :
    positionFrom first ch (linearOf ch p) = ⟨first + p.entry, p.offset⟩ := by
  obtain ⟨i, k⟩ := p
  induction ch generalizing i first with
  | nil => simp [onChain, entryCount] at hp
  | cons e es ih =>
    rw [onChain_iff_lt] at hp
    cases i with
    | zero =>
      have inFirst : k < e.count.toNat := by simpa using hp
      simp [positionFrom, inFirst]
    | succ i =>
      have inRest : onChain es ⟨i, k⟩ = true := (onChain_iff_lt es ⟨i, k⟩).2 (by simpa using hp)
      simp [positionFrom, ih (first + 1) i inRest, Nat.add_assoc, Nat.add_comm 1 i]

/-- One advance raises the number of a position by 1, modulo the capacity. -/
theorem linearOf_advanceOne {ch : List Extent} {p : Pos} (good : chainGood ch = true) (hp : onChain ch p = true) :
    linearOf ch (advanceOne ch p) = (linearOf ch p + 1) % chainCapacity ch := by
  have below := linearOf_lt_chainCapacity (onChain_advanceOne good hp)
  have onEntry := (onChain_iff_lt ch p).1 hp
  have number := linearOf_eq_start_add ch p
  have entryEnd := linearOf_nextEntry (entry_lt_length_of_onChain hp)
  by_cases within : p.offset + 1 < entryCount ch p
  · rw [advanceOne_within within] at below ⊢
    have raised : linearOf ch ⟨p.entry, p.offset + 1⟩ = linearOf ch p + 1 := rfl
    rw [← raised, Nat.mod_eq_of_lt below]
  · have atEnd : linearOf ch p + 1 = linearOf ch ⟨p.entry + 1, 0⟩ := by omega
    by_cases hasNext : p.entry + 1 < ch.length
    · rw [advanceOne_nextEntry within hasNext] at below ⊢
      rw [atEnd, Nat.mod_eq_of_lt below]
    · have chainEnd : p.entry + 1 = ch.length := by have := entry_lt_length_of_onChain hp; omega
      rw [advanceOne_wrap within hasNext, atEnd, chainEnd, linearOf_length, Nat.mod_self, linearOf_origin]

/-! ## An advance by n blocks -/

/-- An advance by 0 blocks leaves a position of the chain where it is. -/
theorem advance_zero {ch : List Extent} {p : Pos} (hp : onChain ch p = true) : advance ch 0 p = p := by
  simp [advance, Nat.mod_eq_of_lt (linearOf_lt_chainCapacity hp), positionFrom_linearOf 0 hp]

/-- An advance by n + 1 blocks is one advance by one block, then an advance by n. -/
theorem advance_succ {ch : List Extent} {p : Pos} (n : Nat) (good : chainGood ch = true) (hp : onChain ch p = true) :
    advance ch (n + 1) p = advance ch n (advanceOne ch p) := by
  simp only [advance, linearOf_advanceOne good hp, Nat.mod_add_mod]
  rw [Nat.add_assoc, Nat.add_comm 1 n]

theorem advance_one {ch : List Extent} {p : Pos} (good : chainGood ch = true) (hp : onChain ch p = true) :
    advance ch 1 p = advanceOne ch p :=
  (advance_succ 0 good hp).trans (advance_zero (onChain_advanceOne good hp))

/-- An advance by n blocks is n advances by one block (R102). -/
theorem advance_eq_iterate {ch : List Extent} {p : Pos} (n : Nat) (good : chainGood ch = true) (hp : onChain ch p = true) :
    advance ch n p = (advance ch 1)^[n] p := by
  induction n generalizing p with
  | zero => exact advance_zero hp
  | succ n ih =>
    calc advance ch (n + 1) p
      _ = advance ch n (advanceOne ch p) := advance_succ n good hp
      _ = (advance ch 1)^[n] (advanceOne ch p) := ih (onChain_advanceOne good hp)
      _ = (advance ch 1)^[n + 1] p := by rw [← advance_one good hp, Function.iterate_succ_apply]

/-! ## The store block address -/

/-- The sum of an entry's start address and an offset of a block in it does not wrap (R100, R102). -/
theorem storeAddress_toNat {ch : List Extent} {p : Pos} {e : Extent} (good : chainGood ch = true)
    (he : ch[p.entry]? = some e) (hk : p.offset < e.count.toNat) :
    (storeAddress ch p).toNat = e.start.toNat + p.offset := by
  have noWrap := (extent_bounds_of_chainGood good he).2
  have address : storeAddress ch p = e.start + BitVec.ofNat 32 p.offset := by simp [storeAddress, he]
  rw [address, BitVec.toNat_add, BitVec.toNat_ofNat]
  omega

/-! ## The statement -/

/-- Settles O51: `advance` agrees with `advanceOne` through the numbers of the blocks, the entry marked last is the end of the
chain, and the checks of R100 keep the store block address below 2^32. -/
theorem positionsAdvance : Obligations.PositionsAdvance := by
  intro table ch p e hch good hp he
  have count := entryCount_of_getElem? he
  have offsetBelow : p.offset < e.count.toNat := count ▸ (onChain_iff_lt ch p).1 hp
  have lastIff := last_iff_of_chainFrom hch he
  have hlen := entry_lt_length_of_onChain hp
  have one := advance_one good hp
  refine ⟨fun within => ?_, fun atEnd notLast => ?_, fun atEnd last => ?_, fun n => advance_eq_iterate n good hp, one.symm,
    storeAddress_toNat good he offsetBelow, ?_⟩
  · exact one.trans (advanceOne_within (by omega))
  · have notEnd : p.entry + 1 ≠ ch.length := fun h => by simp [lastIff.2 h] at notLast
    exact one.trans (advanceOne_nextEntry (by omega) (by omega))
  · have chainEnd := lastIff.1 last
    exact one.trans (advanceOne_wrap (by omega) (by omega))
  · rintro s rfl rfl
    have left : blocksLeft s = e.count.toNat - s.space.head.offset := by rw [blocksLeft, count]
    omega

end Sys2Proof.Machine
end

section
/-! PROOFS. The rows by the way they reach the Bridge: those that only arise while PORn is high, those that the management port
brings, and seven others; and what the whole machine keeps in every command: the queue, the buffer, locked configuration and the
masks, read from the settings. -/

namespace Sys2Proof.Machine

/-! ## The rows by what they run -/

/-- The operation of a row that only arises while PORn is high. -/
def liveOp : Instr → Option (State → State)
  | .stallTimeout => some stallExpires
  | .markerWaitExpiry => some markerWaitExpires
  | .fenceLimitExpiry => some fenceExpires
  | .admitPendingVoid => some admitVoid
  | .admitHeldData => some admitData
  | .admitHeldMark => some admitMark
  | .admitFinalMark => some admitFinal
  | .marknRequest => some pinRequest
  | .framerCopy => some framerCopies
  | .sealTimerExpiry => some sealTimerExpires
  | .linkIdlePeriodEnd => some idlePeriodEnds
  | .resetSettleEnd => some settleEnds
  | .commandFrameEnd => some commandFrameEnds
  | .commandGapEnd => some commandGapEnds
  | .respTimeout => some windowTimeout
  | .identResponse bits => some (identResponse bits)
  | .pollIntervalEnd => some pollEnds
  | .initTimeout => some initLimit
  | .setupResponse bits => some (shortResponse .setup bits setupTaken)
  | .statusResponse bits => some (shortResponse .status bits initSucceeds)
  | .writeRunResponse bits => some (shortResponse .writeRun bits writeRunTaken)
  | .endRunResponse bits => some (shortResponse .endRun bits endRunTaken)
  | .commitResponse bits => some (shortResponse .commit bits (awaitBusy .commit))
  | .readOneResponse bits => some (shortResponse .readOne bits readOneTaken)
  | .dataGapEnd => some dataGapEnds
  | .blockOutEnd => some blockOutEnds
  | .accept => some (takeToken .accept)
  | .crcBad => some (takeToken .crcBad)
  | .writeFail => some (takeToken .writeFail)
  | .range => some (takeToken .range)
  | .tokenInvalid code endBit => some (takeToken (readToken code endBit))
  | .tokenTimeout => some (inTokenWindow (blockFails .tokenTimeout true))
  | .busyEnd => some busyEnds
  | .busyTimeout => some busyExpires
  | .runIdleExpiry => some idleExpires
  | .readBlockReceived b => some (readBlockIn b)
  | .readTimeout => some readWindowExpires
  | _ => none

/-- The operation of a row that the management port brings. -/
def portOp : Instr → Option (State → State)
  | .mgmtBadFrame bits => some (mgmtFrame bits)
  | .start p g => some (startCommand p g)
  | .stop => some stopCommand
  | .halt => some haltCommand
  | .softReset => some softResetCommand
  | .pause => some pauseCommand
  | .resume => some resumeCommand
  | .mark tag => some (markCommand tag)
  | .reclaim => some reclaimCommand
  | .readback => some readbackCommand
  | .recover => some recoverCommand
  | .badCommandCode code => some (badCodeCommand code)
  | .flagWordWrite v => some (clearFlags (maskOf v))
  | .enablesWrite v => some (setEnables (maskOf v))
  | .lineEnablesWrite v => some (setLineEnables (maskOf v))
  | .forceWordWrite v => some (forceFlags (maskOf v))
  | .counterClear a v | .lockedConfigWrite a v | .registerWrite a v => some (writeFrame a v)
  | _ => none

/-- A live row answers with its operation, or with the state as it was while PORn is low. -/
theorem exec_liveOp {c : Instr} {f : State → State} (h : liveOp c = some f) (s : State) :
    exec c s = .next (if s.pornLow then s else f s) := by
  cases c <;> first | contradiction | (cases h; rfl)

/-- A management row answers with its operation, or with the state as it was while the port does not act. -/
theorem exec_portOp {c : Instr} {f : State → State} (h : portOp c = some f) (s : State) :
    exec c s = .next (if portOpen s then f s else s) := by
  have e : exec c s = whenPort f s := by cases c <;> first | contradiction | (cases h; rfl)
  rw [e, whenPort, portOpen]
  cases s.pornLow <;> cases s.mgmtIgnore <;> rfl

/-- The seven rows that are neither live rows nor management rows. -/
inductive OtherRow : Instr → Prop
  | pornFall : OtherRow .pornFall
  | pornRise (csnLow) : OtherRow (.pornRise csnLow)
  | csnRise : OtherRow .csnRiseAfterPorn
  | writeTaken (w) : OtherRow (.upstreamWriteTaken w)
  | readTaken (r) : OtherRow (.upstreamReadTaken r)
  | writeResponse (id a) : OtherRow (.downstreamWriteResponse id a)
  | readResponse (id data status) : OtherRow (.downstreamReadResponse id data status)

/-- Every command is a live row, a management row, or one of the other seven. -/
theorem row_cases (c : Instr) : (∃ f, liveOp c = some f) ∨ (∃ f, portOp c = some f) ∨ OtherRow c := by
  cases c <;> first
    | exact .inl ⟨_, rfl⟩
    | exact .inr (.inl ⟨_, rfl⟩)
    | exact .inr (.inr (by constructor))

/-- A property of the next state, row by row. -/
theorem exec_induction {P : State → Prop} {c : Instr} {s t : State} (h : exec c s = .next t) (stays : P s)
    (live : ∀ f, liveOp c = some f → s.pornLow = false → P (f s))
    (port : ∀ f, portOp c = some f → portOpen s = true → P (f s)) (other : OtherRow c → P t) : P t := by
  rcases row_cases c with ⟨f, hf⟩ | ⟨f, hf⟩ | hc
  · rw [exec_liveOp hf] at h
    cases h
    split
    · exact stays
    · exact live f hf (by simp_all)
  · rw [exec_portOp hf] at h
    cases h
    split
    · exact port f hf ‹_›
    · exact stays
  · exact other hc

/-! ## The other rows, said once -/

/-- PORN_FALL: nothing while PORn is low, else the POR state (R3). -/
theorem exec_pornFall (s : State) :
    exec .pornFall s = .next (if s.pornLow then s else porState (noteCut (forwardHeld s))) := rfl

theorem exec_pornRise (b : Bool) (s : State) :
    exec (.pornRise b) s = .next (if s.pornLow then { s with pornLow := false, mgmtIgnore := b } else s) := rfl

theorem exec_csnRise (s : State) :
    exec .csnRiseAfterPorn s = .next (if s.pornLow then s else { s with mgmtIgnore := false }) := rfl

/-- A write of a length the ports carry is passed straight through while PORn is low, left while the slot is occupied, and
classified else (R1, R3, R6). -/
theorem exec_writeTaken (w : WriteTxn) (s : State) (h : lengthInRange (writeLength w) = true) :
    exec (.upstreamWriteTaken w) s =
      .next (if s.pornLow then forwardWrite w (noteTaken (.write w) s)
        else if s.held.isSome then s else classifyWrite w (noteTaken (.write w) s)) := by
  change execUpstreamWriteTaken w s = _
  unfold execUpstreamWriteTaken
  rw [h]
  cases s.pornLow <;> cases s.held.isSome <;> rfl

theorem exec_writeTaken_bad (w : WriteTxn) (s : State) (h : lengthInRange (writeLength w) = false) :
    exec (.upstreamWriteTaken w) s = .fault .transferLength := by
  change execUpstreamWriteTaken w s = _
  simp [execUpstreamWriteTaken, h]

theorem exec_readTaken (r : ReadTxn) (s : State) (h : lengthInRange r.len = true) :
    exec (.upstreamReadTaken r) s =
      .next (if s.held.isSome then s else forwardRead r (noteTaken (.read r) s)) := by
  change execUpstreamReadTaken r s = _
  unfold execUpstreamReadTaken
  rw [h]
  cases s.held.isSome <;> rfl

theorem exec_readTaken_bad (r : ReadTxn) (s : State) (h : lengthInRange r.len = false) :
    exec (.upstreamReadTaken r) s = .fault .transferLength := by
  change execUpstreamReadTaken r s = _
  simp [execUpstreamReadTaken, h]

theorem exec_writeResponse (id : Byte) (a : WriteAnswer) (s : State) :
    exec (.downstreamWriteResponse id a) s =
      .next (returnWriteResponse id a (if s.pornLow then s else matchResponse a s)) := rfl

theorem exec_readResponse (id : Byte) (data : List Byte) (status : Nat) (s : State) :
    exec (.downstreamReadResponse id data status) s =
      .next { s with ports.upstream := s.ports.upstream ++ [.read id data status] } := rfl

/-- A taken transaction that answers a next state has a length the ports carry. -/
theorem lengthInRange_of_writeTaken {w : WriteTxn} {s t : State} (h : exec (.upstreamWriteTaken w) s = .next t) :
    lengthInRange (writeLength w) = true := by
  by_contra hl
  rw [exec_writeTaken_bad w s (by simpa using hl)] at h
  cases h

theorem lengthInRange_of_readTaken {r : ReadTxn} {s t : State} (h : exec (.upstreamReadTaken r) s = .next t) :
    lengthInRange r.len = true := by
  by_contra hl
  rw [exec_readTaken_bad r s (by simpa using hl)] at h
  cases h

/-! ## Settings through the rows -/

/-- Every live row but a block in leaves the settings alone. -/
theorem settings_liveOp {c : Instr} {f : State → State} (h : liveOp c = some f) (hb : ∀ b, c ≠ .readBlockReceived b)
    (s : State) : settings (f s) = settings s := by
  cases c <;> first
    | contradiction
    | exact absurd rfl (hb _)
    | (cases h; simp [framerCopies])

/-- The management rows that write a mask, or the word of an address. -/
def writesWord : Instr → Bool
  | .mgmtBadFrame _ | .enablesWrite _ | .lineEnablesWrite _ | .counterClear _ _ | .lockedConfigWrite _ _
  | .registerWrite _ _ => true
  | _ => false

theorem settings_portOp {c : Instr} {f : State → State} (h : portOp c = some f) (hw : writesWord c = false) (s : State) :
    settings (f s) = settings s := by
  cases c <;> first
    | contradiction
    | (cases h; simp)

/-- A block in fills the buffer in its window, and changes no other setting. -/
theorem settings_readBlockIn (b : BlockIn) (s : State) :
    settings (readBlockIn b s) = settings s ∨
      settings (readBlockIn b s) = { settings s with buffer := fillBuffer (blockBytes s.link.setupSize) b.bytes } := by
  unfold readBlockIn
  split
  · right
    unfold blockReceived
    dsimp only
    split
    · exact settings_retryOrFail _ _ _
    · split <;> exact settings_endReadback _ _ _
  · exact .inl rfl

/-! ## Register writes -/

/-- The settings that no register write changes: pins, buffer, the record of the upstream side, and the queue. -/
def wires (s : State) : Bool × Bool × Memory × List Txn × List Response × List Instr :=
  (s.pornLow, s.mgmtIgnore, s.buffer, s.ports.taken, s.ports.upstream, s.pending)

/-- The wires depend on the settings alone. -/
theorem wires_congr {s t : State} (h : settings t = settings s) : wires t = wires s := by
  simp only [settings, Settings.mk.injEq] at h
  simp only [wires, h]

theorem wires_openWrite (a : Half) (v : Word) (s : State) : wires (openWrite a v s) = wires s := by
  unfold openWrite; split_ifs <;> rfl

theorem wires_lockedWrite (a : Half) (v : Word) (s : State) : wires (lockedWrite a v s) = wires s := by
  unfold lockedWrite setLocked; split_ifs <;> rfl

theorem wires_writeFrame (a : Half) (v : Word) (s : State) : wires (writeFrame a v s) = wires s := by
  unfold writeFrame
  cases accessOf a
  case rw => exact wires_openWrite a v s
  case lk => exact wires_lockedWrite a v s
  all_goals exact wires_congr (by simp)

/-- A frame of the management port is a WRITE frame, or changes no setting. -/
theorem mgmtFrame_cases (bits : List Bool) (s : State) :
    (∃ a v, frameKind bits = .write a v ∧ mgmtFrame bits s = writeFrame a v (noteShifted bits s)) ∨
      settings (mgmtFrame bits s) = settings s := by
  unfold mgmtFrame
  dsimp only
  split
  · exact .inl ⟨_, _, ‹_›, rfl⟩
  · exact .inr (settings_noteShifted _ _)
  · exact .inr (by simp)

theorem wires_mgmtFrame (bits : List Bool) (s : State) : wires (mgmtFrame bits s) = wires s := by
  rcases mgmtFrame_cases bits s with ⟨a, v, -, h⟩ | h
  · rw [h, wires_writeFrame, wires_congr (settings_noteShifted s bits)]
  · exact wires_congr h

/-- No management row changes the wires. -/
theorem wires_portOp {c : Instr} {f : State → State} (h : portOp c = some f) (s : State) : wires (f s) = wires s := by
  cases hw : writesWord c
  · exact wires_congr (settings_portOp h hw s)
  · cases c <;> first
      | contradiction
      | (cases h; first | exact wires_mgmtFrame _ s | exact wires_writeFrame _ _ s | rfl)

end Sys2Proof.Machine
end

section
/-! PROOFS. The statements about the whole machine that the settings decide: what stops, and that the queue, the readback buffer,
locked configuration and the masks change at their own rows alone. -/

namespace Sys2Proof.Machine

/-! ## What stops -/

/-- A transaction row answers a next state for a length the ports carry, and stops for another. -/
theorem otherRow_answers {c : Instr} (hc : OtherRow c) (s : State) :
    (transferOk c = true → ∃ t, exec c s = .next t) ∧ (transferOk c = false → exec c s = .fault .transferLength) := by
  cases hc with
  | writeTaken w => exact ⟨fun h => ⟨_, exec_writeTaken w s h⟩, exec_writeTaken_bad w s⟩
  | readTaken r => exact ⟨fun h => ⟨_, exec_readTaken r s h⟩, exec_readTaken_bad r s⟩
  | _ => exact ⟨fun _ => ⟨_, rfl⟩, fun h => nomatch h⟩

/-- Live rows and management rows carry no transaction. -/
theorem transferOk_of_op {c : Instr} {f : State → State} (h : liveOp c = some f ∨ portOp c = some f) :
    transferOk c = true := by
  cases c <;> first | rfl | (rcases h with h | h <;> contradiction)

/-- Settles O3: the rows of an operation answer always, and of the others the two transactions by their length. -/
theorem onlyTransferLengthStops : Obligations.OnlyTransferLengthStops := by
  intro c s
  rcases row_cases c with ⟨f, hf⟩ | ⟨f, hf⟩ | hc
  · exact ⟨fun _ => ⟨_, exec_liveOp hf s⟩, fun h => by rw [transferOk_of_op (.inl hf)] at h; cases h⟩
  · exact ⟨fun _ => ⟨_, exec_portOp hf s⟩, fun h => by rw [transferOk_of_op (.inr hf)] at h; cases h⟩
  · exact otherRow_answers hc s

/-! ## The queue -/

theorem pending_liveOp {c : Instr} {f : State → State} (h : liveOp c = some f) (s : State) : (f s).pending = s.pending := by
  by_cases hb : ∃ b, c = .readBlockReceived b
  · obtain ⟨b, rfl⟩ := hb
    cases h
    rcases settings_readBlockIn b s with e | e <;> exact congrArg Settings.pending e
  · exact congrArg Settings.pending (settings_liveOp h (fun b e => hb ⟨b, e⟩) s)

/-- The settings less the pins and the record of the upstream side, which the other rows write. -/
def stored (s : State) : Settings := { settings s with pornLow := false, mgmtIgnore := false, taken := [], upstream := [] }

theorem stored_congr {s t : State} (h : settings t = settings s) : stored t = stored s := by simp only [stored, h]

/-- Of the other rows PORN_FALL alone writes what is stored. -/
theorem stored_otherRow {c : Instr} {s t : State} (hc : OtherRow c) (hp : c ≠ .pornFall) (h : exec c s = .next t) :
    stored t = stored s := by
  cases hc with
  | pornFall => exact absurd rfl hp
  | pornRise b => rw [exec_pornRise] at h; cases h; split <;> rfl
  | csnRise => rw [exec_csnRise] at h; cases h; split <;> rfl
  | writeTaken w =>
    rw [exec_writeTaken w s (lengthInRange_of_writeTaken h)] at h
    cases h
    split
    · rfl
    · split
      · rfl
      · exact (stored_congr (s := noteTaken (.write w) s) (settings_classifyWrite _ w)).trans rfl
  | readTaken r =>
    rw [exec_readTaken r s (lengthInRange_of_readTaken h)] at h
    cases h
    split <;> rfl
  | writeResponse id a =>
    rw [exec_writeResponse] at h
    cases h
    split
    · rfl
    · exact (show stored (returnWriteResponse id a (matchResponse a s)) = stored (matchResponse a s) from rfl).trans
        (stored_congr (settings_matchResponse s a))
  | readResponse id data status => rw [exec_readResponse] at h; cases h; rfl

theorem pending_pornFall {s t : State} (h : exec .pornFall s = .next t) : t.pending = s.pending := by
  rw [exec_pornFall] at h
  cases h
  split
  · rfl
  · exact congrArg Settings.pending ((settings_noteCut _).trans (settings_forwardHeld s))

/-- Settles O4: the queue is a setting, and no row writes it. -/
theorem commandsKeepQueue : Obligations.CommandsKeepQueue := by
  intro c s t h
  refine exec_induction (P := fun t => t.pending = s.pending) h rfl ?_ ?_ ?_
  · exact fun f hf _ => pending_liveOp hf s
  · exact fun f hf _ => congrArg (·.2.2.2.2.2) (wires_portOp hf s)
  · intro hc
    by_cases hp : c = .pornFall
    · subst hp
      exact pending_pornFall h
    · exact congrArg Settings.pending (stored_otherRow hc hp h)

/-! ## The readback buffer -/

theorem buffer_portOp {c : Instr} {f : State → State} (h : portOp c = some f) (s : State) : (f s).buffer = s.buffer :=
  congrArg (·.2.2.1) (wires_portOp h s)

/-- No row but PORN_FALL and a block in writes the buffer. -/
theorem buffer_exec {c : Instr} {s t : State} (h : exec c s = .next t) (hp : c ≠ .pornFall)
    (hb : ∀ b, c ≠ .readBlockReceived b) : t.buffer = s.buffer := by
  refine exec_induction (P := fun t => t.buffer = s.buffer) h rfl ?_ ?_ ?_
  · exact fun f hf _ => congrArg Settings.buffer (settings_liveOp hf hb s)
  · exact fun f hf _ => buffer_portOp hf s
  · exact fun hc => congrArg Settings.buffer (stored_otherRow hc hp h)

/-- Settles O14: a row that does not write the buffer leaves every byte of it. -/
theorem bufferChangesOnlyByBlockIn : Obligations.BufferChangesOnlyByBlockIn :=
  fun _ _ _ h hp hb _ => by rw [buffer_exec h hp hb]

/-- Any row keeps the canonical form: a block in fills the buffer in it, POR empties the buffer. -/
theorem exec_keeps_bufferOk {c : Instr} {s t : State} (ok : bufferOk s = true) (h : exec c s = .next t) :
    bufferOk t = true := by
  by_cases hp : c = .pornFall
  · subst hp
    rw [exec_pornFall] at h
    cases h
    split
    · exact ok
    · rfl
  by_cases hb : ∃ b, c = .readBlockReceived b
  · obtain ⟨b, rfl⟩ := hb
    rw [exec_liveOp rfl] at h
    cases h
    split
    · exact ok
    · rcases settings_readBlockIn b s with e | e
      · exact (congrArg (fun x : Settings => x.buffer.wf) e).trans ok
      · exact (congrArg (fun x : Settings => x.buffer.wf) e).trans (fillBuffer_wf _ _)
  · rw [bufferOk, buffer_exec h hp (fun b e => hb ⟨b, e⟩)]
    exact ok

/-! ## Steps -/

/-- What every command keeps and a quiet microsecond keeps, every step keeps. -/
theorem step_keeps {P : State → Prop} {s t : State} (h : step s = .next t) (hs : P s)
    (queue : ∀ rest, P s → P { s with pending := rest }) (quiet : P s → P (tick s))
    (command : ∀ c u, P u → exec c u = .next t → P t) : P t := by
  unfold step at h
  split at h
  · cases h
    exact quiet hs
  · exact command _ _ (queue _ hs) h

/-- Settles O9: by the rows that write the buffer. -/
theorem stepKeepsBufferForm : Obligations.StepKeepsBufferForm :=
  fun _ _ ok h => step_keeps (P := fun s => bufferOk s = true) h ok (fun _ k => k) (fun k => k)
    fun _ _ k e => exec_keeps_bufferOk k e

/-! ## Locked configuration -/

/-- The locked configuration is read from the settings. -/
theorem locked_congr {s t : State} (h : stored t = stored s) : locked t = locked s := by
  simp only [stored, settings, Settings.mk.injEq] at h
  simp only [locked, h]

/-- The unlocked words are no locked configuration. -/
theorem locked_openWrite (a : Half) (v : Word) (s : State) : locked (openWrite a v s) = locked s := by
  have words : ∀ n, (writeOpenWord n v s.words).blockSize = s.words.blockSize ∧
      (writeOpenWord n v s.words).busWidth = s.words.busWidth ∧
      (writeOpenWord n v s.words).initDivisor = s.words.initDivisor ∧
      (writeOpenWord n v s.words).runDivisor = s.words.runDivisor ∧
      (writeOpenWord n v s.words).retryLimit = s.words.retryLimit := by
    intro n
    unfold writeOpenWord
    split <;> exact ⟨rfl, rfl, rfl, rfl, rfl⟩
  unfold openWrite writeLowWatermark setEnables setLineEnables
  split_ifs <;> simp only [locked, words]

/-- Outside STOPPED a WRITE frame changes no locked configuration (R188). -/
theorem locked_writeFrame (a : Half) (v : Word) (s : State) (h : s.journal.state ≠ .stopped) :
    locked (writeFrame a v s) = locked s := by
  unfold writeFrame
  cases accessOf a
  case rw => exact locked_openWrite a v s
  case lk =>
    unfold lockedWrite
    rw [if_neg h]
    rfl
  all_goals exact locked_congr (stored_congr (by simp))

theorem locked_portOp {c : Instr} {f : State → State} (hf : portOp c = some f) (s : State)
    (h : s.journal.state ≠ .stopped) : locked (f s) = locked s := by
  cases hw : writesWord c
  · exact locked_congr (stored_congr (settings_portOp hf hw s))
  · cases c <;> try contradiction
    case mgmtBadFrame bits =>
      cases hf
      rcases mgmtFrame_cases bits s with ⟨a, v, -, e⟩ | e
      · rw [e, locked_writeFrame _ _ _ (by simpa using h), locked_congr (stored_congr (settings_noteShifted s bits))]
      · exact locked_congr (stored_congr e)
    case enablesWrite v => cases hf; rfl
    case lineEnablesWrite v => cases hf; rfl
    all_goals cases hf; exact locked_writeFrame _ _ s h

theorem locked_liveOp {c : Instr} {f : State → State} (hf : liveOp c = some f) (s : State) : locked (f s) = locked s := by
  by_cases hb : ∃ b, c = .readBlockReceived b
  · obtain ⟨b, rfl⟩ := hb
    cases hf
    have read : ∀ x : State, locked x = ⟨(settings x).regions, (settings x).triggers, (settings x).extents,
        (settings x).words.blockSize, (settings x).words.busWidth, (settings x).words.initDivisor,
        (settings x).words.runDivisor, (settings x).words.retryLimit⟩ := fun _ => rfl
    rw [read, read s]
    rcases settings_readBlockIn b s with e | e <;> rw [e]
  · exact locked_congr (stored_congr (settings_liveOp hf (fun b e => hb ⟨b, e⟩) s))

/-- Settles O11: the only rows that write locked configuration refuse to outside STOPPED. -/
theorem lockedConfigurationKept : Obligations.LockedConfigurationKept := by
  intro c s t hj hp h
  refine exec_induction (P := fun t => locked t = locked s) h rfl ?_ ?_ ?_
  · exact fun f hf _ => locked_liveOp hf s
  · exact fun f hf _ => locked_portOp hf s hj
  · exact fun hc => locked_congr (stored_otherRow hc hp h)

/-! ## The masks -/

/-- The two masks of enables. -/
def masks (s : State) : Half × Half := (s.events.enables, s.events.lineEnables)

theorem masks_congr {s t : State} (h : stored t = stored s) : masks t = masks s := by
  simp only [stored, settings, Settings.mk.injEq] at h
  simp only [masks, h]

theorem masks_liveOp {c : Instr} {f : State → State} (hf : liveOp c = some f) (s : State) : masks (f s) = masks s := by
  by_cases hb : ∃ b, c = .readBlockReceived b
  · obtain ⟨b, rfl⟩ := hb
    cases hf
    have read : ∀ x : State, masks x = ((settings x).enables, (settings x).lineEnables) := fun _ => rfl
    rw [read, read s]
    rcases settings_readBlockIn b s with e | e <;> rw [e]
  · exact masks_congr (stored_congr (settings_liveOp hf (fun b e => hb ⟨b, e⟩) s))

/-- A write to an unlocked word changes a mask at the mask's own word. -/
theorem masks_openWrite (a : Half) (v : Word) (s : State) :
    masks (openWrite a v s) =
      (if a.toNat = 0x41 then maskOf v else s.events.enables, if a.toNat = 0x42 then maskOf v else s.events.lineEnables) := by
  unfold openWrite
  split_ifs <;> first | omega | rfl

/-- A WRITE frame that changes the masks is one to a RW word. -/
theorem masks_writeFrame (a : Half) (v : Word) (s : State) (h : accessOf a ≠ .rw) : masks (writeFrame a v s) = masks s := by
  unfold writeFrame
  cases ha : accessOf a
  case rw => exact absurd ha h
  case lk => unfold lockedWrite setLocked; split_ifs <;> rfl
  all_goals exact masks_congr (stored_congr (by simp))

/-- The mask a written word gives is its low 16 bits. -/
theorem maskOf_eq (v : Word) : maskOf v = v.setWidth 16 := by
  ext i hi; simp [maskOf]

/-- What R193 lets a command do to the masks: one changes at its own write alone, to the low 16 bits of the written word. -/
def WritesMasks (c : Instr) (s t : State) : Prop :=
  (t.events.enables ≠ s.events.enables →
    ∃ v : Word, t.events.enables = v.setWidth 16 ∧ (c = .enablesWrite v ∨ c = .registerWrite 0x41 v)) ∧
  (t.events.lineEnables ≠ s.events.lineEnables →
    ∃ v : Word, t.events.lineEnables = v.setWidth 16 ∧ (c = .lineEnablesWrite v ∨ c = .registerWrite 0x42 v))

theorem writesMasks_of_same {c : Instr} {s t : State} (e : masks t = masks s) : WritesMasks c s t :=
  ⟨fun h => absurd (congrArg Prod.fst e) h, fun h => absurd (congrArg Prod.snd e) h⟩

/-- A write to an unlocked word of the window. -/
theorem writesMasks_registerWrite (a : Half) (v : Word) (s : State) (access : accessOf a = .rw) :
    WritesMasks (.registerWrite a v) s (writeFrame a v s) := by
  have e : writeFrame a v s = openWrite a v s := by rw [writeFrame, access]
  rw [e]
  have en : (openWrite a v s).events.enables = if a.toNat = 0x41 then maskOf v else s.events.enables :=
    congrArg Prod.fst (masks_openWrite a v s)
  have ln : (openWrite a v s).events.lineEnables = if a.toNat = 0x42 then maskOf v else s.events.lineEnables :=
    congrArg Prod.snd (masks_openWrite a v s)
  constructor
  · intro h
    by_cases ha : a.toNat = 0x41
    · exact ⟨v, by rw [en, if_pos ha, maskOf_eq], .inr (by rw [BitVec.eq_of_toNat_eq (x := a) (y := 0x41) ha])⟩
    · exact absurd (en.trans (if_neg ha)) h
  · intro h
    by_cases ha : a.toNat = 0x42
    · exact ⟨v, by rw [ln, if_pos ha, maskOf_eq], .inr (by rw [BitVec.eq_of_toNat_eq (x := a) (y := 0x42) ha])⟩
    · exact absurd (ln.trans (if_neg ha)) h

theorem writesMasks_portOp {c : Instr} {f : State → State} (hf : portOp c = some f) (hw : c.wellFormed = true)
    (s : State) : WritesMasks c s (f s) := by
  cases hr : writesWord c
  · exact writesMasks_of_same (masks_congr (stored_congr (settings_portOp hf hr s)))
  · cases c <;> try contradiction
    case mgmtBadFrame bits =>
      cases hf
      refine writesMasks_of_same ?_
      rcases mgmtFrame_cases bits s with ⟨a, v, hk, e⟩ | e
      · have ro : accessOf a = .ro := by simpa [Instr.wellFormed, badFrameWellFormed, hk] using hw
        rw [e, masks_writeFrame _ _ _ (by rw [ro]; decide), masks_congr (stored_congr (settings_noteShifted s bits))]
      · exact masks_congr (stored_congr e)
    case enablesWrite v =>
      cases hf
      exact ⟨fun _ => ⟨v, maskOf_eq v, .inl rfl⟩, fun h => absurd rfl h⟩
    case lineEnablesWrite v =>
      cases hf
      exact ⟨fun h => absurd rfl h, fun _ => ⟨v, maskOf_eq v, .inl rfl⟩⟩
    case counterClear a v =>
      cases hf
      have : accessOf a = .wc := by simpa [Instr.wellFormed, addressWellFormed] using hw
      exact writesMasks_of_same (masks_writeFrame _ _ _ (by rw [this]; decide))
    case lockedConfigWrite a v =>
      cases hf
      have : accessOf a = .lk := by simpa [Instr.wellFormed, addressWellFormed] using hw
      exact writesMasks_of_same (masks_writeFrame _ _ _ (by rw [this]; decide))
    case registerWrite a v =>
      cases hf
      exact writesMasks_registerWrite a v s (by simpa [Instr.wellFormed, addressWellFormed] using hw)

/-- Settles O15: the rows that write a mask. -/
theorem masksChangeOnlyByWrites : Obligations.MasksChangeOnlyByWrites := by
  intro c s t hw h hp
  refine exec_induction (P := WritesMasks c s) h (writesMasks_of_same rfl) ?_ ?_ ?_
  · exact fun f hf _ => writesMasks_of_same (masks_liveOp hf s)
  · exact fun f hf _ => writesMasks_portOp hf hw s
  · exact fun hc => writesMasks_of_same (masks_congr (stored_otherRow hc hp h))

end Sys2Proof.Machine
end

section
/-! PROOFS. A step, the state after reset, PORn, and the reads. -/

namespace Sys2Proof.Machine

/-- Settles O1: `step` runs the front of the queue. -/
theorem stepRunsFrontCommand : Obligations.StepRunsFrontCommand := fun _ _ _ => rfl

/-- Settles O2: on an empty queue `step` is one `tick`. -/
theorem quietStepAdvancesTimers : Obligations.QuietStepAdvancesTimers := by
  intro s h
  have quiet : step s = .next (tick s) := by rw [step, h]
  exact quiet

/-! ## Reset -/

/-- The tables after reset: every entry is the POR entry. -/
theorem reset_tables :
    (∀ i : Fin 16, State.reset.regions[i] = Region.por) ∧ (∀ i : Fin 4, State.reset.triggers[i] = Trigger.por) ∧
      (∀ i : Fin 32, State.reset.extents[i] = Extent.por) ∧ (∀ i : Fin 8, State.reset.window[i] = .free) := by
  refine ⟨?_, ?_, ?_, ?_⟩ <;> intro i <;> simp [State.reset]

theorem reset_counters (c : Counter) : counterValue c State.reset = 0 := by cases c <;> rfl

/-- Settles O10: the invariants are evaluated, and the values are those of the POR definitions. -/
theorem resetIsSafe : Obligations.ResetIsSafe := by
  obtain ⟨regions, triggers, extents, window⟩ := reset_tables
  refine ⟨by decide, rfl, fun i => ?_, fun i => ?_, fun i => ?_, rfl, rfl, rfl, rfl, rfl, rfl, rfl, rfl, rfl, rfl, rfl,
    by decide, rfl, window, rfl, rfl, rfl, rfl, rfl, rfl, rfl, rfl, rfl, rfl, rfl, rfl, rfl, rfl, rfl, rfl, rfl, rfl, rfl, rfl,
    rfl, rfl, rfl, rfl, rfl, rfl, rfl, rfl, rfl, rfl, rfl, reset_counters, fun _ => rfl⟩
  · rw [regions i]; exact ⟨rfl, rfl, rfl, rfl, rfl, rfl, rfl⟩
  · rw [triggers i]; exact ⟨rfl, rfl, rfl⟩
  · rw [extents i]; exact ⟨rfl, rfl, rfl, rfl, rfl⟩

/-! ## PORn -/

/-- The held write leaves with its place in the count, or nothing does. -/
theorem forwardHeld_out (s : State) :
    (forwardHeld s).ports = { s.ports with downstream := s.ports.downstream ++ heldTxn s } ∧
      (forwardHeld s).rtq.forwardCount = s.rtq.forwardCount + (if s.held.isSome then 1 else 0) ∧
      (forwardHeld s).rtq.answerCount = s.rtq.answerCount ∧ (forwardHeld s).link = s.link ∧
      (forwardHeld s).pending = s.pending := by
  unfold forwardHeld heldTxn
  cases s.held with
  | none => simp
  | some h => exact ⟨rfl, rfl, rfl, rfl, rfl⟩

/-- What the cut of the link's work notes. -/
theorem noteCut_ports (s : State) : (noteCut s).ports = { s.ports with linkOut := s.ports.linkOut ++ cutMark s } := rfl

/-- Settles O16: the fall leaves the POR state behind a forwarded held write and a cut; the rise and the CSn rise open the port. -/
theorem pornFallsAndRises : Obligations.PornFallsAndRises := by
  intro s
  refine ⟨fun high => ?_, fun csnLow low => ?_, fun high => ?_⟩
  · obtain ⟨ports, forwarded, answered, link, queue⟩ := forwardHeld_out s
    rw [exec_pornFall_high high]
    have cut : cutMark (forwardHeld s) = cutMark s := by unfold cutMark; rw [link]
    unfold porState
    rw [noteCut_ports]
    simp only [noteCut_keeps, ports, forwarded, answered, queue, cut]
  · rw [exec_pornRise, if_pos low]
  · rw [exec_csnRise, high]; rfl

/-! ## Reads -/

/-- Settles O18: a read passes while the slot is empty, and waits behind a held write. -/
theorem readsPassThrough : Obligations.ReadsPassThrough := by
  intro s
  have length : ∀ r : ReadTxn, 1 ≤ r.len → r.len ≤ 256 → lengthInRange r.len = true := by
    intro r h1 h2
    simp [lengthInRange, h1, h2]
  refine ⟨fun r h1 h2 free => ?_, fun r h1 h2 held => ?_, fun id data status => exec_readResponse id data status s⟩
  · rw [exec_readTaken r s (length r h1 h2), if_neg (by simp [free])]; rfl
  · rw [exec_readTaken r s (length r h1 h2), if_pos held]

end Sys2Proof.Machine
end

section
/-! PROOFS. A write as it is taken from the upstream port: passed on uncaptured, recorded, merged, lost, held or marked. -/

namespace Sys2Proof.Machine

/-- The lengths the ports carry, by the lanes of a write. -/
theorem lengthInRange_lanes {w : WriteTxn} (h1 : 1 ≤ w.lanes.length) (h2 : w.lanes.length ≤ 256) :
    lengthInRange (writeLength w) = true := by
  simp [lengthInRange, writeLength, h1, h2]

/-! ## Uncaptured writes -/

/-- With the slot empty, a taken write that is passed on. -/
theorem forwardWrite_taken (w : WriteTxn) (cs : List (Counter × Nat)) (s : State) (h : s.held = none) :
    forwardWrite w { noteTaken (.write w) s with counters := countersWith cs s } =
      { s with
        rtq.forwardCount := s.rtq.forwardCount + 1
        rtq.tracking := s.rtq.tracking.map fun e => { e with ordinal := some (e.ordinal.getD s.rtq.forwardCount) }
        ports.taken := s.ports.taken ++ [.write w]
        ports.downstream := s.ports.downstream ++ [.write w]
        counters := countersWith cs s } := by
  refine (forwardWrite_eq w _ (by exact h)).trans ?_
  unfold withForwarded
  rw [← h]
  rfl

/-- A write that no region or trigger captures is passed on, and CROSSING counts it if it crosses a page. -/
theorem classifyWrite_uncaptured (w : WriteTxn) (s : State)
    (h : crosses w = true ∨ capturing s = false ∨
      (winningRegion s.regions w = none ∧ matchingTrigger s.triggers w = none)) :
    classifyWrite w s =
      forwardWrite w { s with counters := countersWith (if crosses w then [(.crossing, 1)] else []) s } := by
  unfold classifyWrite
  cases hc : crosses w
  · rw [hc] at h
    rcases h with h | h | ⟨h1, h2⟩
    · cases h
    · simp only [h, Bool.false_eq_true, if_false]; rfl
    · simp only [h1, h2, Bool.false_eq_true, if_false, ite_self]; rfl
  · rfl

/-- Settles O19: by the level of PORn and what captures the write. -/
theorem uncapturedWriteForwarded : Obligations.UncapturedWriteForwarded := by
  intro w s h1 h2
  have length := lengthInRange_lanes h1 h2
  constructor
  · intro free h
    rw [exec_writeTaken w s length]
    congr 1
    rcases Bool.eq_false_or_eq_true s.pornLow with low | high
    · rw [if_pos low, show (crosses w && !s.pornLow) = false by simp [low]]
      exact forwardWrite_taken w [] s free
    · rw [if_neg (by simp [high]), if_neg (by simp [free]), show (crosses w && !s.pornLow) = crosses w by simp [high],
        classifyWrite_uncaptured w (noteTaken (.write w) s) (h.resolve_left (by simp [high]))]
      exact forwardWrite_taken w (if crosses w then [(.crossing, 1)] else []) s free
  · intro held high
    rw [exec_writeTaken w s length, high, if_neg (by simp), if_pos held]

/-! ## Captured writes -/

/-- A captured write that does not merge is offered as a record of its own. -/
theorem exec_alone {w : WriteTxn} {r : Fin 16} {s : State} (h : capturedBy w r s) (alone : standsAlone w r s) :
    exec (.upstreamWriteTaken w) s =
      .next (offerData w r (matchingTrigger s.triggers w) (noteTaken (.write w) s)) := by
  rw [exec_captured w r s h]
  exact congrArg _ (captureWrite_alone w r _ (noteTaken (.write w) s) alone)

/-- A captured write whose own record is granted room. -/
theorem exec_granted {w : WriteTxn} {r : Fin 16} {s : State} (h : capturedBy w r s) (alone : standsAlone w r s)
    (voids : s.rtq.voids = []) (bytes : formedSize w + 64 ≤ freeBytes s) (slots : 3 ≤ freeSlots s) :
    exec (.upstreamWriteTaken w) s =
      .next (withTracked w s.capture.seqCounter r (matchingTrigger s.triggers w)
        (withData w r (formedFields w s.regions[r]) (noteTaken (.write w) s))) := by
  have free : s.held = none := by obtain ⟨-, -, -, free, -⟩ := h; exact free
  rw [exec_alone h alone]
  exact congrArg _ (offerData_granted w r _ (noteTaken (.write w) s) free voids bytes slots)

/-- Settles O20: a granted record with a tracking entry left. -/
theorem capturedWriteRecorded : Obligations.CapturedWriteRecorded := by
  intro w r s h alone voids tracking bytes slots seq u
  have recorded : exec (.upstreamWriteTaken w) s = .next (withOutcome w r (matchingTrigger s.triggers w) u) :=
    (exec_granted h alone voids bytes slots).trans (congrArg _ (if_pos tracking))
  refine ⟨recorded, fun plain => ⟨_, recorded, ?_⟩⟩
  have outcome : withOutcome w r (matchingTrigger s.triggers w) u = withForwarded w u := by rw [plain]; rfl
  rw [outcome]
  refine ⟨rfl, ?_, rfl, ?_, rfl⟩
  · have mask : (formedFields w s.regions[r]).mask.isNone = w.lanes.all (·.strobe) := by
      unfold formedFields
      cases w.lanes.all (·.strobe) <;> rfl
    rw [← mask]
    rfl
  · exact List.map_append

/-- Settles O21: the write merges, and goes on as a tracked write. -/
theorem contiguousWriteMerged : Obligations.ContiguousWriteMerged := by
  intro w r o q f n s h hopen tail region address strobed combined voids growth room v u
  have free : s.held = none := by obtain ⟨-, -, -, free, -⟩ := h; exact free
  have merges : canMerge o w r (noteTaken (.write w) s) = true := by
    have grown : roomForGrowth (mergeGrowth o w) (noteTaken (.write w) s) = true := decide_eq_true room
    simp [canMerge, region, address, fullyStrobed, strobed, writeLength, combined, atOnce, heldWaits, free, voids, grown]
  rw [exec_captured w r s h]
  congr 1
  have taken : captureWrite w r (matchingTrigger s.triggers w) (noteTaken (.write w) s) =
      trackWrite w o.seq r (matchingTrigger s.triggers w) (mergeWrite o w (noteTaken (.write w) s)) := by
    unfold captureWrite
    simp only [noteTaken_keeps, hopen, merges, if_true]
  rw [taken, trackWrite_eq, mergeWrite_eq o w q f n (noteTaken (.write w) s) tail]
  have bytes : w.lanes.map laneByte = w.lanes.map (·.data) := by
    refine List.map_congr_left fun l hl => ?_
    simp [laneByte, List.all_eq_true.1 strobed l hl]
  rw [mergeFields, bytes]
  rfl

/-- A captured write whose own record is refused room. -/
theorem exec_refused {w : WriteTxn} {r : Fin 16} {s : State} (h : capturedBy w r s) (alone : standsAlone w r s)
    (refused : s.rtq.voids ≠ [] ∨ freeBytes s < formedSize w + 64 ∨ freeSlots s < 3) :
    exec (.upstreamWriteTaken w) s =
      .next (match s.regions[r].policy with
        | .stall => withHeld w (.admitData r (matchingTrigger s.triggers w) (formedFields w s.regions[r]))
            s.regions[r].stallLimit.toNat (noteTaken (.write w) s)
        | .shed => withOutcome w r (matchingTrigger s.triggers w)
            (withLost w s.regions[r].label (noteTaken (.write w) s))) := by
  rw [exec_alone h alone]
  exact congrArg _ (offerData_refused w r _ (noteTaken (.write w) s) refused)

/-- Settles O22: a refused record of a SHED region is lost, in a new GAP record or in the open one. -/
theorem shedWriteLost : Obligations.ShedWriteLost := by
  intro w r s h alone shed refused n stop u
  refine ⟨?_, fun noGap => ?_, fun o q e gap tail => ?_⟩
  · rw [exec_refused h alone refused, shed]; rfl
  · simp only [u, withLost, noGap]
    exact ⟨rfl, rfl, rfl, rfl⟩
  · simp only [u, withLost, gap, tail, List.dropLast_concat, List.getLast?_concat]
    exact ⟨rfl, rfl, rfl, trivial⟩

/-- Settles O23: a refused record of a STALL region waits for room, a record without a tracking entry for one. -/
theorem writesHeldForRoomOrTracking : Obligations.WritesHeldForRoomOrTracking := by
  intro w r s h alone trig f taken
  refine ⟨fun stall refused => ?_, fun voids full bytes slots => ?_⟩
  · rw [exec_refused h alone refused, stall]
    have limit : s.regions[r].stallLimit.toNat = 0 ↔ s.regions[r].stallLimit = 0 := by
      rw [← BitVec.toNat_inj]; rfl
    simp only [withHeld, limit]
    rfl
  · rw [exec_granted h alone voids bytes slots]
    exact congrArg _ (if_neg (Nat.not_lt.2 full))

end Sys2Proof.Machine
end

section
/-! PROOFS. Marker waits, responses, the limits of a held write, and the admission arbiter. -/

namespace Sys2Proof.Machine

/-! ## A marker that enters -/

/-- Below its top the epoch counter advances. -/
theorem withMark_capture (tag : Half) (src : Source) (fenced final : Bool) (s : State)
    (h : s.capture.epochCounter ≠ 4294967295) :
    (withMark tag src fenced final s).capture =
      ⟨s.capture.seqCounter + 1, s.capture.epochCounter + 1, none, none⟩ := by
  unfold withMark
  simp only [if_neg h]

/-- A trigger write whose trigger is fenced is held for FENCE behind its marker. -/
theorem withMarked_fenced (w : WriteTxn) (i : Fin 4) (s : State) (h : s.triggers[i].fenced = true) :
    withMarked w i s =
      withHeld w (.fence s.capture.epochCounter) (s.words.fenceLimit * 1000)
        (withMark (writeTag w) (.trigger i) true false s) := by
  simp only [withMarked, h, if_true]

/-- A trigger write whose trigger is not fenced is forwarded behind its marker. -/
theorem withMarked_plain (w : WriteTxn) (i : Fin 4) (s : State) (h : s.triggers[i].fenced = false) :
    withMarked w i s = withForwarded w (withMark (writeTag w) (.trigger i) false false s) := by
  simp only [withMarked, h, Bool.false_eq_true, if_false]

/-- What a trigger write that is marked changes, whether it is fenced or not. -/
theorem withMarked_changes (w : WriteTxn) (i : Fin 4) (s : State) (top : s.capture.epochCounter ≠ 4294967295) :
    let t := withMarked w i s
    let fenced := s.triggers[i].fenced
    let limit := s.words.fenceLimit * 1000
    t = { s with
          held := t.held, rtq := t.rtq, capture := t.capture, staging := t.staging, markers := t.markers,
          events.flags := t.events.flags, ports.downstream := t.ports.downstream } ∧
      t = { s with
          held := t.held, rtq := t.rtq, capture := t.capture, staging := t.staging, markers := t.markers,
          events.flags := t.events.flags, ports := t.ports } ∧
      t.staging.queue = s.staging.queue ++
        [⟨⟨s.capture.seqCounter, .mark ⟨s.capture.epochCounter, writeTag w, .trigger i, fenced, false⟩⟩, 0⟩] ∧
      (t.staging.highArmed = armedAfterRise s t ∧ t.staging.finalMark = s.staging.finalMark ∧
        t.staging.lowWritten = false) ∧
      t.capture = ⟨s.capture.seqCounter + 1, s.capture.epochCounter + 1, none, none⟩ ∧
      t.markers = { s.markers with entries := s.markers.entries ++
        [⟨s.capture.epochCounter, writeTag w, .trigger i, fenced, false, s.capture.seqCounter, none, .recorded⟩] } ∧
      t.events.flags = flagsWith (riseEvents s t) s ∧
      (fenced = true →
        t.held = some ⟨w, .fence s.capture.epochCounter, if limit = 0 then none else some ⟨limit, 0⟩⟩ ∧
          t.rtq = s.rtq ∧ t.ports = s.ports) ∧
      (fenced = false → t.held = none ∧
        t.rtq = { s.rtq with
                  forwardCount := s.rtq.forwardCount + 1
                  tracking := s.rtq.tracking.map fun e => { e with ordinal := some (e.ordinal.getD s.rtq.forwardCount) } } ∧
        t.ports = { s.ports with downstream := s.ports.downstream ++ [.write w] }) := by
  intro t fenced limit
  have capture := withMark_capture (writeTag w) (.trigger i) s.triggers[i].fenced false s top
  cases h : s.triggers[i].fenced
  · have e : t = _ := withMarked_plain w i s h
    rw [h] at capture
    rw [e]
    refine ⟨rfl, rfl, ?_, ⟨rfl, rfl, rfl⟩, capture, ?_, rfl, fun h' => ?_, fun _ => ⟨rfl, rfl, rfl⟩⟩
    · simp only [fenced, h]; rfl
    · simp only [fenced, h]; rfl
    · simp [fenced, h] at h'
  · have e : t = _ := withMarked_fenced w i s h
    rw [h] at capture
    rw [e]
    refine ⟨rfl, rfl, ?_, ⟨rfl, rfl, rfl⟩, capture, ?_, rfl, fun _ => ⟨rfl, rfl, rfl⟩, fun h' => ?_⟩
    · simp only [fenced, h]; rfl
    · simp only [fenced, h]; rfl
    · simp [fenced, h] at h'

/-! ## A trigger write in no region -/

/-- Settles O24: the four cases of a marker wait that begins against the fence limit. -/
theorem triggerWriteMarked : Obligations.TriggerWriteMarked := by
  intro w i s h1 h2 high free page capture region match' taken fenced limit timer room
  have begins := exec_trigger w i s h1 h2 high free page capture region match'
  refine ⟨fun top => ?_, fun top => ⟨fun full => ?_, fun some' noRoom => ?_, fun some' hasRoom => ?_⟩⟩
  · exact begins.trans (congrArg _ (if_pos top))
  · exact begins.trans (congrArg _ ((if_neg top).trans (if_pos full)))
  · exact begins.trans (congrArg _ ((if_neg top).trans ((if_neg (Nat.not_le.2 some')).trans (if_neg noRoom))))
  · obtain ⟨whole, ports, queue, ⟨armed, final, low⟩, cap, markers, flags, isFenced, notFenced⟩ := withMarked_changes w i taken top
    have stays : (withMarked w i taken).ports.taken = taken.ports.taken := by rw [whole]
    refine ⟨_, begins.trans (congrArg _ ((if_neg top).trans ((if_neg (Nat.not_le.2 some')).trans (if_pos hasRoom)))),
      ports, queue, armed, final, low, cap, markers, flags, stays, isFenced, notFenced, rfl⟩

/-! ## Responses -/

/-- A response while PORn is high, by what it matches. -/
theorem exec_writeResponse_high (id : Byte) (a : WriteAnswer) {s : State} (high : s.pornLow = false) :
    exec (.downstreamWriteResponse id a) s = .next (withReturned id a (matchResponse a s)) := by
  rw [exec_writeResponse, high]; rfl

/-- An ERROR for an entry that is not ended forms a VOID in a free slot while the journal captures, or drains before the FINAL
MARK record entered (R21). -/
theorem withConsumed_void (e : TrackEntry) (rest : List TrackEntry) (s : State) (h : e.ended = false)
    (forms : capturing s = true ∨ (drainingLike s = true ∧ s.staging.finalMark ≠ .entered)) (slots : s.rtq.voids.length < 4) :
    withConsumed .error e rest s =
      { s with rtq.tracking := rest, rtq.voids := s.rtq.voids ++ [⟨e.seq, e.addr, e.length⟩] } := by
  have f : (capturing s || (drainingLike s && s.staging.finalMark != .entered)) = true := by simpa using forms
  exact if_pos ⟨h, f, slots⟩

/-- An ERROR is late when the entry is ended, the FINAL MARK record has entered, or the slots are full (R21, R22). -/
theorem withConsumed_late (e : TrackEntry) (rest : List TrackEntry) (s : State)
    (late : e.ended = true ∨ (capturing s = false ∧ s.staging.finalMark = .entered) ∨ 4 ≤ s.rtq.voids.length) :
    withConsumed .error e rest s =
      { s with
        rtq.tracking := rest, counters := countersWith [(.voidsLate, 1)] s, events.flags := flagsWith [.voidLate] s } := by
  refine if_neg ?_
  rintro ⟨h, f, slots⟩
  rcases late with k | ⟨k, k'⟩ | k
  · rw [k] at h; cases h
  · simp [k, k'] at f
  · omega

/-- The drain of R21 is the model's. -/
theorem drainingLike_iff (s : State) :
    drainingLike s = true ↔
      s.journal.state = .draining ∨ (s.journal.state = .faulted ∧ s.journal.resume = some .draining) := by
  unfold drainingLike
  cases s.journal.state <;> simp

/-- A draining journal does not capture (R9). -/
theorem not_capturing_of_draining {s : State} (h : drainingLike s = true) : capturing s = false := by
  unfold drainingLike at h
  unfold capturing
  cases hj : s.journal.state <;> simp_all

/-- Settles O25: the entry a response consumes, by its code. -/
theorem writeResponseMatched : Obligations.WriteResponseMatched := by
  intro id a s back
  refine ⟨fun low => ?_, fun high other => ?_, ?_⟩
  · rw [exec_writeResponse, low]; rfl
  · rw [exec_writeResponse_high id a high, matchResponse_other a s other]; rfl
  · intro high e rest oldest ordinal notTracking drains
    have consumed : exec (.downstreamWriteResponse id a) s = .next (back (withConsumed a e rest s)) := by
      rw [exec_writeResponse_high id a high, matchResponse_own a e rest s oldest ordinal,
        releaseTracking_none _ (by simpa using notTracking)]
      rfl
    have draining : drains ↔ drainingLike s = true := (drainingLike_iff s).symm
    refine ⟨fun okay => ?_, fun error open' forms slots => ?_, fun error late => ?_⟩
    · subst okay; exact consumed
    · subst error
      rw [draining] at forms
      exact consumed.trans (congrArg (fun t => (.next (back t) : Result)) (withConsumed_void e rest s open' forms slots))
    · subst error
      rw [draining] at late
      exact consumed.trans (congrArg (fun t => (.next (back t) : Result)) (withConsumed_late e rest s
        (late.imp_right (Or.imp_left fun ⟨d, f⟩ => ⟨not_capturing_of_draining d, f⟩))))

/-- Settles O26: the freed entry goes to the write held for TRACKING. -/
theorem freedEntryReleasesTracking : Obligations.FreedEntryReleasesTracking := by
  intro id a w q r trig stopped tm e rest s high held oldest ordinal length x
  have released : exec (.downstreamWriteResponse id a) s = .next (withReturned id a (releaseTracking x)) := by
    rw [exec_writeResponse_high id a high, matchResponse_own a e rest s oldest ordinal]
  have heldX : x.held = some ⟨w, .tracking q r trig stopped, tm⟩ := (withConsumed_keeps a e rest s).1.trans held
  have free : x.rtq.tracking.length < 32 := by rw [(withConsumed_keeps a e rest s).2.1]; exact length
  have outside : stopped = false → exec (.downstreamWriteResponse id a) s =
      .next (withReturned id a (withOutcome w r trig (withEntry w q false { x with held := none }))) := by
    intro h
    rw [h] at heldX
    rw [released, releaseTracking_held w q r trig tm x heldX]
    exact congrArg (fun t => (.next (withReturned id a t) : Result)) (if_pos free)
  refine ⟨outside, fun h => ?_, fun okay h plain => ?_⟩
  · rw [h] at heldX
    rw [released, releaseTracking_stopped w q r trig tm x heldX]
  · rw [outside h]
    subst okay plain
    simp only [x, withConsumed, withOutcome, withForwarded, withEntry, withReturned, List.map_append]
    rfl

/-! ## The limits of a held write -/

/-- Settles O27: the write is accounted and goes on to its outcome. -/
theorem stallLimitLosesWrite : Obligations.StallLimitLosesWrite := by
  intro w r trig f tm s high held u
  have expires : exec .stallTimeout s =
      .next (withOutcome w r trig { u with events.flags := flagsWith [.stallTimeout] u }) := by
    rw [exec_liveOp rfl, high]
    simp only [stallExpires, held, accountLost_eq, afterData_eq]
    rfl
  refine ⟨expires, ?_⟩
  intro plain noGap g
  subst plain
  refine ⟨_, expires, ?_⟩
  have lost : withLost w s.regions[r].label { s with held := none } = u := rfl
  simp only [withLost, noGap] at lost
  have flags : flagsWith [.stallTimeout] u = flagsWith (riseEvents s u ++ [.gapOpened, .stallTimeout]) s := by
    rw [← lost]
    simp only [flagsWith_append]
    rfl
  simp only [withOutcome, withForwarded, flags]
  rw [← lost]
  exact ⟨rfl, rfl, rfl, rfl, List.length_map .., rfl, rfl⟩

/-- Settles O28: each limit row by the reason and the timer of the hold. -/
theorem markerAndFenceLimitsRelease : Obligations.MarkerAndFenceLimitsRelease := by
  intro s high
  have live : ∀ {c : Instr} {f : State → State} (t : State), liveOp c = some f → f s = t → exec c s = .next t := by
    intro c f t h e
    rw [exec_liveOp h, high, ← e]; rfl
  refine ⟨fun w i tm held => ?_, fun w e tm held => ?_, fun other => ?_, fun other => ?_, fun other => ?_⟩
  · refine live _ rfl ?_
    rcases held with held | held <;> simp only [markerWaitExpires, held, finishWrite_eq, loseMark_eq]
  · refine live _ rfl ?_
    simp only [fenceExpires, held, finishWrite_eq]
    rfl
  · refine live _ rfl ?_
    unfold stallExpires
    split
    · exact absurd ‹_› (other _ _ _ _ _)
    · rfl
  · refine live _ rfl ?_
    unfold markerWaitExpires
    split
    · exact absurd ‹_› (other _ _ _).1
    · exact absurd ‹_› (other _ _ _).2
    · rfl
  · refine live _ rfl ?_
    unfold fenceExpires
    split
    · exact absurd ‹_› (other _ _ _)
    · rfl

end Sys2Proof.Machine
end

section
/-! PROOFS. The admission arbiter: pending VOIDs, the records of a held write, the FINAL MARK record, and MARKn. -/

namespace Sys2Proof.Machine

/-- A live row with PORn high runs its operation. -/
theorem exec_live {c : Instr} {f : State → State} {s : State} (h : liveOp c = some f) (high : s.pornLow = false) :
    exec c s = .next (f s) := by
  rw [exec_liveOp h, high]; rfl

/-- Room fails for its bytes or for its slots. -/
theorem roomForRecord_eq_false {n : Nat} {s : State} (h : freeBytes s < n + 64 ∨ freeSlots s < 3) :
    roomForRecord n s = false := by
  rw [Bool.eq_false_iff, Ne, roomForRecord_iff]
  omega

/-! ## VOID and DATA records -/

/-- Settles O29: the oldest VOID, by its room. -/
theorem pendingVoidAdmitted : Obligations.PendingVoidAdmitted := by
  intro v rest s high voids
  have admits : admitVoid s = if roomForRecord voidSize s then
      raise .voidRecorded (bump .voids 1 (enterRecord (.void v) { s with rtq.voids := rest })) else s := by
    rw [admitVoid, voids]
  refine ⟨fun bytes slots => ⟨_, exec_live rfl high, ?_⟩, fun refused => ?_⟩
  · rw [admits, if_pos ((roomForRecord_iff voidSize s).2 ⟨bytes, slots⟩), enterRecord_eq]
    refine ⟨rfl, rfl, rfl, rfl, rfl, rfl, ?_⟩
    rw [flagsWith_append]
    rfl
  · rw [exec_live rfl high, admits, roomForRecord_eq_false (n := voidSize) refused]; rfl

/-- Settles O30: the held DATA record, by its claim and its room. -/
theorem heldDataAdmitted : Obligations.HeldDataAdmitted := by
  intro w r trig f tm s high held size seq
  have admits : admitData s = if s.rtq.voids.isEmpty && roomForRecord size s then
      withTracked w seq r trig (withData w r f { s with held := none }) else s := by
    simp only [admitData, held, trackWrite_eq, enterData_eq]
    rfl
  refine ⟨fun voids bytes slots => ?_, fun refused => ?_⟩
  · have admitted : exec .admitHeldData s = .next (withTracked w seq r trig (withData w r f { s with held := none })) := by
      rw [exec_live rfl high, admits, if_pos]
      rw [voids, (roomForRecord_iff size s).2 ⟨bytes, slots⟩]; rfl
    refine ⟨admitted, fun tracking plain => ⟨_, admitted.trans (congrArg _ (if_pos tracking)), ?_⟩⟩
    subst plain
    exact ⟨rfl, rfl, rfl, rfl, rfl, rfl, rfl, by simp [withOutcome, withForwarded, withEntry, withData, seq]⟩
  · rw [exec_live rfl high, admits, if_neg]
    rcases refused with voids | room
    · simp [voids]
    · rw [roomForRecord_eq_false room]; simp

/-! ## MARK records -/

/-- Settles O31: the held MARK record, by its claim, its room and the list. -/
theorem heldMarkAdmitted : Obligations.HeldMarkAdmitted := by
  intro w i tm s high held room fenced limit
  have granted : (s.rtq.voids.isEmpty && roomForRecord markSize s && !listFull s) = true ↔ room := by
    rw [Bool.and_eq_true, Bool.and_eq_true, roomForRecord_iff, List.isEmpty_iff]
    simp only [listFull, Bool.not_eq_true', decide_eq_false_iff_not, Nat.not_le, room, markSize, and_assoc]
  have admits : admitMark s = if room then withMarked w i s else s := by
    simp only [admitMark, held, admitTriggerMark_eq, granted]
  refine ⟨fun refused => ?_, fun hasRoom top => ⟨_, exec_live rfl high, ?_⟩⟩
  · rw [exec_live rfl high, admits, if_neg refused]
  · obtain ⟨whole, -, queue, -, cap, markers, flags, isFenced, notFenced⟩ := withMarked_changes w i s top
    rw [admits, if_pos hasRoom]
    refine ⟨whole, queue, cap, markers, flags, fun h => ?_, fun h => ?_, rfl⟩
    · obtain ⟨waits, rtq, ports⟩ := isFenced h
      exact ⟨waits, rtq, congrArg Ports.downstream ports⟩
    · obtain ⟨free, rtq, ports⟩ := notFenced h
      exact ⟨free, congrArg Rtq.forwardCount rtq, congrArg Ports.downstream ports⟩

/-- Settles O32: the FINAL MARK record with every condition of its claim met. -/
theorem finalMarkAdmitted : Obligations.FinalMarkAdmitted := by
  intro s high waits voids free bytes slots entry
  refine ⟨_, exec_live rfl high, ?_⟩
  have admits : admitFinal s = withMark 0 .command false true { s with staging.finalMark := .entered } := by
    unfold admitFinal
    rw [if_pos, enterMark_eq]
    simp [waits, voids, free, listFull, entry, (roomForRecord_iff markSize s).2 ⟨bytes, slots⟩]
  rw [admits]
  refine ⟨rfl, rfl, rfl, rfl, rfl, ?_, rfl, rfl⟩
  by_cases top : s.capture.epochCounter = 4294967295
  · simp only [withMark, top, if_true]
  · rw [if_neg top]
    exact withMark_capture _ _ _ _ { s with staging.finalMark := .entered } top

/-- Settles O33: a request of MARKn by the journal state and what it needs. -/
theorem pinRequestAnswered : Obligations.PinRequestAnswered := by
  intro s high room
  have granted : (decide (s.capture.epochCounter = epochTop) || listFull s || !markGranted s) = false ↔ room := by
    have top : epochTop = 4294967295 := rfl
    simp only [Bool.or_eq_false_iff, decide_eq_false_iff_not, listFull, Bool.not_eq_false', markGranted, atOnce,
      Bool.and_eq_true, roomForRecord_iff, List.isEmpty_iff, Bool.not_eq_true', markSize, room, top, Nat.not_le]
    tauto
  refine ⟨fun still => ?_, fun captures refused => ?_, fun captures hasRoom => ⟨_, exec_live rfl high, ?_⟩⟩
  · rw [exec_live rfl high]
    simp [pinRequest, still]
  · have lost : (s.capture.epochCounter = epochTop || listFull s || !markGranted s) = true := by
      rw [← Bool.not_eq_false]; exact fun h => refused (granted.1 h)
    rw [exec_live rfl high]
    unfold pinRequest
    rw [captures, if_neg (by simp), if_pos lost, loseMark_eq]
    rfl
  · have enters : pinRequest s = withMark 0 .pin false false s := by
      unfold pinRequest
      rw [captures, if_neg (by simp), granted.2 hasRoom, enterMark_eq]
      rfl
    have top : s.capture.epochCounter ≠ 4294967295 := by
      obtain ⟨-, -, -, -, -, top⟩ := hasRoom
      exact top
    rw [enters]
    exact ⟨rfl, rfl, rfl, rfl, rfl, withMark_capture _ _ _ _ s top, rfl, rfl⟩

end Sys2Proof.Machine
end

section
/-! PROOFS. The Block Framer: a copy into the assembling block, its opening, and the seals that fall due. -/

namespace Sys2Proof.Machine

/-! ## What one copy does -/

/-- Staging after n bytes of its head record were copied out (R46, R56). -/
def withCopied (e : Staged) (rest : List Staged) (n : Nat) (s : State) : State :=
  let left := if n = stagedBytes e then rest else { e with taken := e.taken + n } :: rest
  { s with
    staging.queue := left
    staging.highArmed := s.staging.highArmed || decide (queueBytes left < s.words.lowWatermark)
    staging.lowWritten := false }

theorem addFragment_eq (e : Staged) (n : Nat) (d : Draft) :
    addFragment e n d =
      { d with
        lead := if e.taken = 0 then d.lead else d.lead + n
        starts := if e.taken = 0 then d.starts + 1 else d.starts
        firstSeq := if e.taken = 0 ∧ d.starts = 0 then e.record.seq else d.firstSeq
        payload := d.payload ++ ((recordBytes e.record).drop e.taken).take n } := by
  simp [addFragment]

theorem addFragment_length {e : Staged} {n : Nat} (d : Draft) (h : n ≤ stagedBytes e) :
    (addFragment e n d).payload.length = d.payload.length + n := by
  have : (recordBytes e.record).length = recordSize e.record := recordBytes_length _
  simp only [addFragment, List.length_append, List.length_take, List.length_drop]
  unfold stagedBytes at h
  omega

/-- The copy of a fragment, by what it fills: the last byte of a MARK record, the payload, or neither. -/
theorem copyFragment_cons {e : Staged} {rest : List Staged} {s : State} (i : Fin 8) (d : Draft)
    (h : s.staging.queue = e :: rest) {n : Nat} (hn : n = min (stagedBytes e) (payloadRoom d s)) :
    copyFragment i d s =
      if n = stagedBytes e ∧ (markFinal e.record.body).isSome then
        sealBlock i (addFragment e n d) (if markFinal e.record.body = some true then .final else .mark)
          (placeMark e.record.seq d.serial (withCopied e rest n s))
      else if d.payload.length + n = payloadSize s.framer.blockSize then
        sealBlock i (addFragment e n d) .full (withCopied e rest n s)
      else serveIfDue (setSlot i (.assembling (addFragment e n d)) (withCopied e rest n s)) := by
  subst hn
  have fill := addFragment_length d (Nat.min_le_left (stagedBytes e) (payloadRoom d s))
  have copied : compareFall { s with staging.queue :=
      if (min (stagedBytes e) (payloadRoom d s) == stagedBytes e) = true then rest
      else { e with taken := e.taken + min (stagedBytes e) (payloadRoom d s) } :: rest } =
      withCopied e rest (min (stagedBytes e) (payloadRoom d s)) s := by
    by_cases done : min (stagedBytes e) (payloadRoom d s) = stagedBytes e <;>
      simp [withCopied, compareFall, occupiedBytes, done]
  unfold copyFragment
  rw [h]
  simp only [copied, fill]
  by_cases done : min (stagedBytes e) (payloadRoom d s) = stagedBytes e
  · cases hm : markFinal e.record.body with
    | none => simp [done, withCopied]
    | some final => cases final <;> simp [done]
  · have : (min (stagedBytes e) (payloadRoom d s) == stagedBytes e) = false := by simpa using done
    simp [done, withCopied]

theorem framerStep_assembling {i : Fin 8} {d : Draft} {s : State} (closed : hasClosed s = true)
    (assem : assembling s = some (i, d)) : framerStep s = copyFragment i d s := by
  simp [framerStep, closed, assem]

theorem markFinal_eq_none {b : Body} (h : ∀ f, b ≠ .mark f) : markFinal b = none := by
  cases b with
  | mark f => exact absurd rfl (h f)
  | _ => rfl

theorem sealMarker_eq (recSeq serial : Word) (m : Marker) :
    sealMarker recSeq serial m =
      if m.recSeq = recSeq ∧ m.state = .recorded then { m with state := .sealed, serial := some serial } else m := by
  simp [sealMarker]

theorem nextEpoch_eq (e : Word) : nextEpoch e = if e = 4294967295 then e else e + 1 := rfl

theorem hasClosed_empty {s : State} (h : s.staging.queue = []) : hasClosed s = false := by simp [hasClosed, h]

/-- A due seal of the block just copied into: it stays due while a closed record is left. -/
theorem serveIfDue_copied {i : Fin 8} {d d' : Draft} {s : State} (assem : assembling s = some (i, d)) (t : State)
    (window : t.window = s.window) :
    serveIfDue (setSlot i (.assembling d') t) =
      if t.framer.due ≠ .none && !hasClosed t then serveDue i d' (setSlot i (.assembling d') t)
      else setSlot i (.assembling d') t := by
  have : assembling t = some (i, d) := by unfold assembling; rw [window]; exact assem
  exact serveIfDue_assembling i d' _ (assembling_setSlot i d d' t this)

/-- Settles O34: by what the fragment fills, and then by what a due seal finds left. -/
theorem framerCopiesAndSeals : Obligations.FramerCopiesAndSeals := by
  intro i d e rest s high assem queue closed space size room n d' left copied cause
  have fragment : addFragment e n d = d' := addFragment_eq e n d
  have staged : withCopied e rest n s = copied := rfl
  have copies := copyFragment_cons i d queue (n := n) rfl
  rw [fragment, staged] at copies
  have exec_eq : exec .framerCopy s = .next (linkChoose (copyFragment i d s)) := by
    rw [exec_live rfl high, framerCopies, framerStep_assembling closed assem]
  have plain : (∀ f, e.record.body ≠ .mark f) → ¬ (n = stagedBytes e ∧ (markFinal e.record.body).isSome) :=
    fun h => by simp [markFinal_eq_none h]
  have sizes : size = stagedBytes e := rfl
  have rooms : room = payloadSize s.framer.blockSize - d.payload.length := rfl
  have least : n = min size room := rfl
  have partly : size < room → ¬ d.payload.length + n = payloadSize s.framer.blockSize := by omega
  have open_ : size < room → (∀ f, e.record.body ≠ .mark f) →
      copyFragment i d s = serveIfDue (setSlot i (.assembling d') copied) := fun small body => by
    rw [copies, if_neg (plain body), if_neg (partly small)]
  have whole : size < room → left = rest := fun small => if_pos (by omega)
  refine ⟨fun small body stays => ?_, fun small body due alone => ?_, fun o small body due one unclosed fresh => ?_,
    fun full body => ?_, fun f body fits => ?_⟩
  · rw [exec_eq, open_ small body, serveIfDue_copied assem copied rfl, if_neg]
    · rfl
    · rcases stays with none | some
      · simp [copied, none]
      · simp [some]
  · have queueEmpty : copied.staging.queue = [] := (whole small).trans alone
    rw [exec_eq, open_ small body, serveIfDue_copied assem copied rfl, if_pos]
    · exact congrArg (fun u => (.next (linkChoose u) : Result))
        ((serveDue_empty i d' (setSlot i (.assembling d') copied) queueEmpty).trans (withSealed_setSlot _ _ _ _))
    · simpa [hasClosed_empty queueEmpty] using due
  · have queueOne : copied.staging.queue = [o] := (whole small).trans one
    have serves : exec .framerCopy s =
        .next (linkChoose (serveDue i d' (setSlot i (.assembling d') copied))) := by
      rw [exec_eq, open_ small body, serveIfDue_copied assem copied rfl, if_pos]
      simp [unclosed, copied, due]
    have served := serveDue_one i d' o (setSlot i (.assembling d') copied) queueOne fresh
    refine ⟨fun large => ?_, fun fits => ?_⟩
    · refine serves.trans (congrArg (fun u => (.next (linkChoose u) : Result)) ?_)
      exact (served.trans (if_neg (Nat.not_le.2 large))).trans (withSealed_setSlot _ _ _ _)
    · refine serves.trans (congrArg (fun u => (.next (linkChoose u) : Result)) ?_)
      exact (served.trans (if_pos fits)).trans (withSealed_setSlot _ _ _ (withOpenTaken copied))
  · rw [exec_eq, copies, if_neg, if_pos]
    · rfl
    · omega
    · rintro ⟨all, mark⟩
      rw [markFinal_eq_none (body (by omega))] at mark
      cases mark
  · intro epoch
    have placed : placeMark e.record.seq d.serial copied =
        { copied with
          framer.framingEpoch := epoch
          markers.entries := s.markers.entries.map fun m =>
            if m.recSeq = e.record.seq ∧ m.state = .recorded then { m with state := .sealed, serial := some d.serial }
            else m } := by
      rw [placeMark, nextEpoch_eq, funext (sealMarker_eq e.record.seq d.serial)]
    have last : n = stagedBytes e ∧ (markFinal e.record.body).isSome := ⟨by omega, by rw [body]; rfl⟩
    have kind : (if markFinal e.record.body = some true then SealCause.final else .mark) =
        if f.final then .final else .mark := by
      rw [body]
      cases hf : f.final <;> simp [markFinal, hf]
    rw [exec_eq, copies, if_pos last, placed, kind, sealBlock_withSealed]

/-! ## Opening a block -/

theorem assembling_isSome {s : State} {i : Fin 8} {d : Draft} (h : s.window[i] = .assembling d) :
    (assembling s).isSome = true := by
  unfold assembling
  rw [List.findSome?_isSome_iff]
  exact ⟨i, List.mem_finRange i, by rw [h]; rfl⟩

/-- The opened slot, as the statement spells it. -/
theorem openBlock_eq (i : Fin 8) (s : State) :
    openBlock i s =
      { s with
        window := s.window.set i (.assembling ⟨s.framer.generation, s.framer.serialCounter, 0, 0, 0, []⟩)
        framer.serialCounter := s.framer.serialCounter + 1
        framer.sealTimer := if s.words.sealTimer = 0 then none else some ⟨s.words.sealTimer.toNat, 0⟩ } := by
  have zero : (s.words.sealTimer.toNat = 0) = (s.words.sealTimer = 0) := by
    rw [← BitVec.toNat_inj]; rfl
  simp only [openBlock, holdTimer, zero]
  rfl

theorem openBlock_isSome (i : Fin 8) (s : State) : (assembling (openBlock i s)).isSome = true :=
  assembling_isSome (i := i) (d := ⟨s.framer.generation, s.framer.serialCounter, 0, 0, 0, []⟩) (by simp [openBlock, setSlot])

/-- A Framer that opens a slot copies into it. -/
theorem framerStep_opens {s : State} {i : Fin 8} (idle : assembling s = none) (closed : hasClosed s = true)
    (free : lowestFree s = some i) : framerStep s = framerStep (openBlock i s) := by
  obtain ⟨⟨j, d⟩, assem⟩ := Option.isSome_iff_exists.1 (openBlock_isSome i s)
  rw [framerStep_assembling (s := openBlock i s) closed assem]
  simp [framerStep, idle, closed, free, assem]

theorem framerStep_waits {s : State} (h : hasClosed s = false ∨ (assembling s = none ∧ lowestFree s = none)) :
    framerStep s = s := by
  unfold framerStep
  rcases h with h | ⟨h, free⟩
  · simp [h]
  · simp [h, free]

/-- Settles O35: the Framer opens the lowest FREE slot, or waits. -/
theorem framerOpensBlocks : Obligations.FramerOpensBlocks := by
  intro s high
  refine ⟨fun i idle closed free => ?_, fun waits => ?_⟩
  · rw [exec_live rfl high, framerCopies, framerStep_opens idle closed free, openBlock_eq]
    exact (exec_live (c := .framerCopy) (f := framerCopies) rfl (by exact high)).symm
  · rw [exec_live rfl high, framerCopies, framerStep_waits waits]

/-! ## The seal timer -/

/-- A TIMER seal is due, or the PAUSE seal that is due already (R68, R69). -/
def withDue (s : State) : State :=
  { s with framer.sealTimer := none, framer.due := if s.framer.due = .pause then .pause else .timer }

theorem withDue_pause (s : State) : ((withDue s).framer.due = .pause) = (s.framer.due = .pause) := by
  unfold withDue
  by_cases h : s.framer.due = .pause <;> simp [h]

theorem sealTimerExpires_eq {i : Fin 8} {d : Draft} {s : State} (runs : s.framer.sealTimer.isSome = true)
    (assem : assembling s = some (i, d)) :
    sealTimerExpires s = linkChoose (if hasClosed s then withDue s else serveDue i d (withDue s)) := by
  have due : (withDue s).framer.due ≠ .none := by unfold withDue; split <;> simp
  have served := serveIfDue_assembling i d (withDue s) assem
  rw [sealTimerExpires, if_pos runs]
  refine congrArg linkChoose (served.trans ?_)
  have closed : hasClosed (withDue s) = hasClosed s := rfl
  rw [closed]
  cases h : hasClosed s <;> simp [due]

/-- Settles O36: by what a due seal finds in staging. -/
theorem sealTimerSeals : Obligations.SealTimerSeals := by
  intro i d s high assem size cause
  refine ⟨fun stopped => ?_, fun runs => ?_⟩
  · rw [exec_live rfl high, sealTimerExpires, stopped]; rfl
  · have seals : exec .sealTimerExpiry s = .next _ :=
      (exec_live rfl high).trans (congrArg _ (sealTimerExpires_eq runs assem))
    have cause_eq : (if (withDue s).framer.due = .pause then SealCause.pause else .timer) = cause := by
      simp only [withDue_pause]; rfl
    refine ⟨fun closed => ?_, fun queue => ?_, fun e queue unclosed fresh => ?_⟩
    · rw [seals, if_pos closed]; rfl
    · have served := serveDue_empty i d (withDue s) queue
      rw [cause_eq] at served
      rw [seals, if_neg (by rw [hasClosed_empty queue]; simp), served]; rfl
    · have served := serveDue_one i d e (withDue s) queue fresh
      simp only [cause_eq] at served
      have seals : exec .sealTimerExpiry s = .next (linkChoose (serveDue i d (withDue s))) := by
        rw [seals, if_neg (by simp [unclosed])]
      refine ⟨fun large => ?_, fun fits => ?_⟩
      · rw [seals, served, if_neg (Nat.not_le.2 (by exact large))]; rfl
      · rw [seals, served, if_pos (by exact fits)]; rfl

end Sys2Proof.Machine
end

section
/-! PROOFS. The waits of the link, and the choice of the next exchange by R144. -/

namespace Sys2Proof.Machine

/-! ## What a wait brings as it ends -/

theorem sendFrame_eq (c : LinkCmd) (s : State) : sendFrame c s = withFrame c (argument c s) s := rfl

/-- A row of a wait that runs, as its operation. -/
theorem commandGapEnds_gap {c : LinkCmd} {s : State} (h : s.link.phase = .gap c) : commandGapEnds s = sendFrame c s := by
  unfold commandGapEnds; rw [h]

theorem commandGapEnds_rest {g d : Bool} {s : State} (h : s.link.phase = .rest g d) :
    commandGapEnds s = linkChoose { s with link.phase := .rest false d } := by
  unfold commandGapEnds; rw [h]

theorem commandGapEnds_elsewhere {s : State} (gap : ∀ c, s.link.phase ≠ .gap c) (rest : ∀ g d, s.link.phase ≠ .rest g d) :
    commandGapEnds s = s := by
  unfold commandGapEnds
  split
  · exact absurd ‹_› (gap _)
  · exact absurd ‹_› (rest _ _)
  · rfl

theorem commandFrameEnds_frame {c : LinkCmd} {s : State} (h : s.link.phase = .frame c) :
    commandFrameEnds s = frameEnds c s := by
  unfold commandFrameEnds; rw [h]

theorem commandFrameEnds_elsewhere {s : State} (h : ∀ c, s.link.phase ≠ .frame c) : commandFrameEnds s = s := by
  unfold commandFrameEnds
  split
  · exact absurd ‹_› (h _)
  · rfl

/-- What an abandonment let end is discarded (R128). -/
theorem inWindow_discards {c : LinkCmd} {s : State} (f : State → State) (h : s.link.phase = .window c)
    (due : s.link.resetDue = true) : inWindow c f s = discardExchange s := by
  simp [inWindow, h, due]

theorem windowTimeout_window {c : LinkCmd} {s : State} (h : s.link.phase = .window c) :
    windowTimeout s = inWindow c (transportError .respTimeout c) s := by
  unfold windowTimeout; rw [h]

/-- The row of a short response runs the response's check in its window. -/
theorem liveOp_responseRow {h : Instr} {bits : BitVec 64} {c : LinkCmd} (r : responseRow bits c = some h) :
    liveOp h = some (shortResponse c bits (takenBy c)) := by
  cases c <;> cases r <;> rfl

theorem settleEnds_settle {s : State} (h : s.link.phase = .settle) :
    settleEnds s = if s.link.resetDue then discardExchange s
      else if s.link.abandoning then abandonmentEnds s else sendFrame .ident s := by
  simp [settleEnds, h]

/-- Settles O38: by the wait that ends. -/
theorem linkWaitsEnd : Obligations.LinkWaitsEnd := by
  intro s high
  refine ⟨fun h => ?_, fun h => ?_, fun h due abandoned => ?_, fun h due => ?_, fun h due abandoned => ?_, fun c h => ?_,
    fun c h => ?_, fun c h due => ?_, fun h => ?_, fun h => ?_, fun h => ?_, fun h => ?_, fun gap rest => ?_⟩
  · rw [exec_live rfl high, idlePeriodEnds, if_pos h]; rfl
  · rw [exec_live rfl high, pollEnds, if_pos h]; rfl
  · rw [exec_live rfl high, settleEnds_settle h, if_neg (by simp [due]), if_neg (by simp [abandoned])]; rfl
  · rw [exec_live rfl high, settleEnds_settle h, if_pos due]; rfl
  · have ends : exec .resetSettleEnd s = .next (abandonmentEnds s) := by
      rw [exec_live rfl high, settleEnds_settle h, if_neg (by simp [due]), if_pos abandoned]
    exact ⟨fun state => ends.trans (congrArg _ (if_neg state)), fun state => ends.trans (congrArg _ (if_pos state))⟩
  · have sent : exec .commandGapEnd s = .next (withFrame c (argument c s) s) := by
      rw [exec_live rfl high, commandGapEnds_gap h, sendFrame_eq]
    refine ⟨fun kind => ?_, fun kind => ?_, fun r kind run => ?_, fun a kind address => ?_⟩
    · rcases kind with rfl | rfl | rfl | rfl <;> exact sent
    · subst kind; exact sent
    · subst kind; rw [sent, argument, run]; rfl
    · subst kind; rw [sent, argument, address]; rfl
  · have ends : exec .commandFrameEnd s = .next (frameEnds c s) := by
      rw [exec_live rfl high, commandFrameEnds_frame h]
    exact ⟨fun other => ends.trans (congrArg _ (if_neg other)), fun reset => ends.trans (congrArg _ (if_pos reset))⟩
  · refine ⟨?_, fun r bits row => ?_, fun ident bits => ?_⟩
    · rw [exec_live rfl high, windowTimeout_window h, inWindow_discards _ h due]; rfl
    · rw [exec_live (liveOp_responseRow row) high, shortResponse, inWindow_discards _ h due]; rfl
    · subst ident
      rw [exec_live rfl high, identResponse, inWindow_discards _ h due]; rfl
  · rw [exec_live rfl high, idlePeriodEnds, if_neg h]
  · rw [exec_live rfl high, pollEnds, if_neg h]
  · rw [exec_live rfl high, settleEnds, if_pos h]
  · rw [exec_live rfl high, commandFrameEnds_elsewhere h]
  · rw [exec_live rfl high, commandGapEnds_elsewhere gap rest]

/-! ## What R144 chooses -/

theorem choose_readback {s : State} (h : s.link.state = .ready) (r : s.link.readback.isSome = true) :
    choose s = .command .readOne := by
  simp [choose, h, chooseReady, r]

theorem choose_elsewhere {s : State} (ready : s.link.state ≠ .ready) (inRun : s.link.state ≠ .inRun) :
    choose s = .nothing := by
  unfold choose
  split
  · exact absurd ‹_› ready
  · exact absurd ‹_› inRun
  all_goals rfl

theorem choose_noRun {s : State} (h : s.link.state = .inRun) (sending : sends s = true) (owed : commitOwed s = false)
    (pause : s.link.pauseReq = false) (run : s.link.run = none) : choose s = .nothing := by
  simp [choose, h, chooseInRun, sendingState_of_sends sending, owed, pause, run]

/-- In STARTING, FAULTED and STOPPED the link sends nothing of its own (R143). -/
theorem choose_resting {s : State} (j : s.journal.state = .starting ∨ s.journal.state = .faulted ∨ s.journal.state = .stopped)
    (r : s.link.readback = none) : choose s = .nothing := by
  have sending : sendingState s = false := by rcases j with j | j | j <;> simp [sendingState, j]
  have recovers : recoverBoundary s = false := by rcases j with j | j | j <;> simp [recoverBoundary, j]
  unfold choose
  split <;> simp [chooseReady, chooseInRun, r, sending, recovers]

theorem choose_inRun_resting {s : State} (h : s.link.state = .inRun) (j : sendingState s = false) : choose s = .nothing := by
  simp [choose, h, chooseInRun, j]

/-- In PAUSED a RECOVER alone brings the link to its boundary (R163). -/
theorem choose_paused {s : State} (h : s.link.state = .ready) (j : s.journal.state = .paused) (r : s.link.readback = none) :
    choose s =
      if s.journal.slot.status = .running ∧ s.journal.slot.code = 9 then
        if commitOwed s then .command .commit else if s.link.pauseReq then .boundary else .nothing
      else .nothing := by
  have sending : sendingState s = false := by simp [sendingState, j]
  have recovers : recoverBoundary s = true ↔ s.journal.slot.status = .running ∧ s.journal.slot.code = 9 := by
    simp [recoverBoundary, j, runningCode, running, codeRecover]
  by_cases recover : s.journal.slot.status = .running ∧ s.journal.slot.code = 9
  · rw [if_pos recover]
    simp [choose, h, chooseReady, r, sending, recovers.2 recover]
  · have : recoverBoundary s = false := by simpa using mt recovers.1 recover
    rw [if_neg recover]
    simp [choose, h, chooseReady, r, sending, this]

/-- With the link READY no run is left to close. -/
theorem choose_ready_ne {s : State} (h : s.link.state = .ready) : choose s ≠ .closeRun := by
  unfold choose chooseReady
  rw [h]
  grind

/-! ## What the link does with its choice -/

section
variable {s : State} {g d : Bool} (rests : s.link.phase = .rest g d)
include rests

theorem linkChoose_nothing (c : choose s = .nothing) : linkChoose s = { s with link.idle := none } := by
  rw [linkChoose_rest rests (by simp [c]), c, act]

theorem linkChoose_command {k : LinkCmd} (c : choose s = .command k) :
    linkChoose s = if g then { s with link.idle := none } else issueCommand k s := by
  rw [linkChoose_rest rests (by simp [c]), c, act]

theorem linkChoose_boundary (c : choose s = .boundary) : linkChoose s = quiescent { s with link.idle := none } := by
  rw [linkChoose_rest rests (by simp [c]), c, act]

theorem linkChoose_idle (c : choose s = .idle) : linkChoose s = startIdle g s := by
  rw [linkChoose_rest rests (by simp [c]), c, act]

theorem linkChoose_block (c : choose s = .block) :
    linkChoose s = if d then { s with link.idle := none } else startBlock { s with link.idle := none } := by
  rw [linkChoose_rest rests (by simp [c]), c, act]

/-- A run that is used up is closed, and R144 is read again with the link READY. -/
theorem linkChoose_closes (c : choose s = .closeRun) : linkChoose s = linkChoose (closeRun s) := by
  have again : (closeRun s).link.phase = .rest g d := rests
  rw [linkChoose_rest again (choose_ready_ne rfl)]
  unfold linkChoose
  rw [rests]
  exact if_pos c

end

theorem linkChoose_elsewhere {s : State} (h : ∀ g d, s.link.phase ≠ .rest g d) : linkChoose s = s := by
  unfold linkChoose
  split
  · exact absurd ‹_› (h _ _)
  · rfl

theorem startBlock_eq {s : State} {i : Fin 8} {b : Block} (h : oldestSealed s = some (i, b)) :
    startBlock s =
      { s with
        window := s.window.set i (.inFlight b)
        link.state := .sending
        link.phase := .blockOut b.draft.serial (headAddress s)
        ports.linkOut := s.ports.linkOut ++ [.block s.link.width (sealedBytes s.framer.blockSize b)] } := by
  unfold startBlock; rw [h]; rfl

/-- A running command that ends DONE without a result. -/
theorem endRunning_done {s : State} (h : s.journal.slot.status = .running) :
    endRunning .done none 0 0 s =
      { s with journal.slot := endedSlot .done none 0 s, events.flags := flagsWith [.commandDone] s } := by
  simp [endRunning, running, h, raiseIf, endedSlot, flagsWith]

theorem endRunning_idle {s : State} (h : s.journal.slot.status ≠ .running) (st re a b) : endRunning st re a b s = s := by
  simp [endRunning, running, h, raiseIf]

theorem quiescent_pausing {s : State} (h : s.journal.state = .pausing) (r : s.journal.slot.status = .running) :
    quiescent s =
      { s with
        journal.state := .paused
        journal.slot := endedSlot .done none 0 s
        events.flags := flagsWith [.commandDone] s } := by
  unfold quiescent
  rw [h]
  exact endRunning_done (s := { s with journal.state := .paused }) r

theorem quiescent_pausing_idle {s : State} (h : s.journal.state = .pausing) (r : s.journal.slot.status ≠ .running) :
    quiescent s = { s with journal.state := .paused } := by
  unfold quiescent
  rw [h]
  exact endRunning_idle (s := { s with journal.state := .paused }) r _ _ _ _

theorem quiescent_sends {s : State} (h : sends s = true) (p : s.journal.state ≠ .pausing) : quiescent s = s := by
  unfold quiescent
  split
  · exact absurd ‹_› p
  · simp_all [sends]
  all_goals rfl

theorem quiescent_recovering {s : State} (h : s.journal.state = .paused)
    (r : s.journal.slot.status = .running ∧ s.journal.slot.code = 9) :
    quiescent s = { s with journal.slot := endedSlot .done none 0 s, events.flags := flagsWith [.commandDone] s } := by
  unfold quiescent
  rw [h]
  exact (if_pos (by simp [runningCode, running, codeRecover, r])).trans (endRunning_done r.1)

theorem startIdle_runs {s : State} (g : Bool) (h : s.link.idle.isSome = true) : startIdle g s = s := by
  simp [startIdle, h]

theorem startIdle_ends {s : State} (g : Bool) (h : s.link.idle = none) (l : s.words.runIdleLimit = 0) :
    startIdle g s = endIdleRun g s := by
  simp [startIdle, h, l]

theorem startIdle_starts {s : State} (g : Bool) (h : s.link.idle = none) (l : s.words.runIdleLimit ≠ 0) :
    startIdle g s = { s with link.idle := some ⟨s.words.runIdleLimit.toNat, 0⟩ } := by
  rw [startIdle, if_neg (by simp [h]), if_neg l]

/-- R144 read with the command gap over: the first part of O39. -/
theorem linkChoosesAfterGap (gap dataGap : Bool) (s : State) (high : s.pornLow = false)
    (rests : s.link.phase = .rest gap dataGap) :
    exec .commandGapEnd s = .next (linkChoose { s with link.phase := .rest false dataGap }) :=
  (exec_live rfl high).trans (congrArg _ (commandGapEnds_rest rests))

/-- Settles O39: by the lines of R144, the command gap over or running. -/
theorem linkChoosesByTable : Obligations.LinkChoosesByTable := by
  refine ⟨fun gap dataGap s high rests => ?_, fun s h => linkChoose_elsewhere h, fun dataGap s rests => ?_⟩
  · intro u
    have reads := linkChoosesAfterGap gap dataGap s high rests
    have gapOver : u.link.phase = .rest false dataGap := rfl
    refine ⟨reads, ?_⟩
    intro still endRun commit recovering
    have nothing (c : choose s = .nothing) : still := reads.trans (congrArg _ (linkChoose_nothing gapOver c))
    have issues {k : LinkCmd} (c : choose s = .command k) : exec .commandGapEnd s = .next (issueCommand k u) :=
      reads.trans (congrArg _ (linkChoose_command gapOver c))
    have bounds (c : choose s = .boundary) : exec .commandGapEnd s = .next (quiescent { u with link.idle := none }) :=
      reads.trans (congrArg _ (linkChoose_boundary gapOver c))
    have idles (c : choose s = .idle) : exec .commandGapEnd s = .next (startIdle false u) :=
      reads.trans (congrArg _ (linkChoose_idle gapOver c))
    refine ⟨fun ready a r => ?_, fun sending ready r => ⟨fun owed => ?_, fun owed pause => ⟨fun j run => ?_, fun j run => ?_,
      fun j => ?_⟩, fun owed pause sealed free => ?_, fun owed pause none => ?_⟩, fun sending inRun => ⟨fun owed => ?_,
      fun owed pause run => ?_, fun owed pause r run => ⟨fun used large => ?_, fun used small => ?_, fun left sealed waits => ?_,
      fun i b left sealed free dataOver oldest => ?_, fun left sealed => ⟨fun runs => ?_, fun idle limit => ?_,
      fun idle limit => ?_⟩⟩⟩, fun paused r => ⟨fun ready recover => ⟨fun owed => ?_, fun owed pause => ?_,
      fun owed pause => ?_⟩, fun ready recover => ?_, fun inRun => ?_⟩, fun j r state => ?_, fun ready inRun => ?_⟩
    · rw [issues (choose_readback ready (by rw [r]; rfl)), issueCommand]
      simp only [sendFrame_eq, argument, r, u]
      rfl
    · exact issues ((choose_ready s ready sending r).trans (if_pos owed))
    · have c : choose s = .boundary := by rw [choose_ready s ready sending r, if_neg (by simp [owed]), if_pos pause]
      exact (bounds c).trans (congrArg _ (quiescent_pausing (s := { u with link.idle := none }) j run))
    · have c : choose s = .boundary := by rw [choose_ready s ready sending r, if_neg (by simp [owed]), if_pos pause]
      exact (bounds c).trans (congrArg _ (quiescent_pausing_idle (s := { u with link.idle := none }) j run))
    · have c : choose s = .boundary := by rw [choose_ready s ready sending r, if_neg (by simp [owed]), if_pos pause]
      exact (bounds c).trans (congrArg _ (quiescent_sends (s := { u with link.idle := none }) sending j))
    · have c : choose s = .command .writeRun := by
        rw [choose_ready s ready sending r, if_neg (by simp [owed]), if_neg (by simp [pause]), if_pos (by simp [sealed, free])]
      exact issues c
    · refine nothing ?_
      rw [choose_ready s ready sending r, if_neg (by simp [owed]), if_neg (by simp [pause]), if_neg]
      rcases none with none | none <;> simp [none]
    · exact issues (choose_inRun_end s inRun sending owed)
    · exact nothing (choose_noRun inRun sending owed pause run)
    · refine issues (k := .endRun) ?_
      rw [choose_inRun s r inRun sending owed pause run, if_pos used, if_neg (by omega)]
    · have c : choose s = .closeRun := by rw [choose_inRun s r inRun sending owed pause run, if_pos used, if_pos small]
      exact reads.trans (congrArg _ (linkChoose_closes gapOver c))
    · have c := choose_inRun s r inRun sending owed pause run
      rw [if_neg left, if_pos sealed] at c
      rcases waits with full | runs
      · exact nothing (c.trans (if_neg (by omega)))
      · by_cases full : 0 < freeBlocks s
        · refine reads.trans (congrArg _ ((linkChoose_block gapOver (c.trans (if_pos full))).trans ?_))
          rw [if_pos runs]
        · exact nothing (c.trans (if_neg full))
    · have c : choose s = .block := by
        rw [choose_inRun s r inRun sending owed pause run, if_neg left, if_pos sealed, if_pos free]
      refine reads.trans (congrArg _ ((linkChoose_block gapOver c).trans ?_))
      rw [if_neg (by simp [dataOver])]
      exact startBlock_eq (s := { u with link.idle := none }) oldest
    · have c : choose s = .idle := by
        rw [choose_inRun s r inRun sending owed pause run, if_neg left, if_neg (by simp [sealed])]
      exact (idles c).trans (congrArg _ (startIdle_runs false (by exact runs)))
    · have c : choose s = .idle := by
        rw [choose_inRun s r inRun sending owed pause run, if_neg left, if_neg (by simp [sealed])]
      exact (idles c).trans (congrArg _ (startIdle_ends (s := u) false idle limit))
    · have c : choose s = .idle := by
        rw [choose_inRun s r inRun sending owed pause run, if_neg left, if_neg (by simp [sealed])]
      exact (idles c).trans (congrArg _ (startIdle_starts (s := u) false idle limit))
    · exact issues (by rw [choose_paused ready paused r, if_pos recover, if_pos owed])
    · have c : choose s = .boundary := by
        rw [choose_paused ready paused r, if_pos recover, if_neg (by simp [owed]), if_pos pause]
      exact (bounds c).trans (congrArg _ (quiescent_recovering (s := { u with link.idle := none }) paused recover))
    · exact nothing (by rw [choose_paused ready paused r, if_pos recover, if_neg (by simp [owed]), if_neg (by simp [pause])])
    · exact nothing (by rw [choose_paused ready paused r, if_neg recover])
    · exact nothing (choose_inRun_resting inRun (by simp [sendingState, paused]))
    · exact nothing (choose_resting j r)
    · exact nothing (choose_elsewhere ready inRun)
  · intro waits recovering
    have nothing (c : choose s = .nothing) : waits := linkChoose_nothing rests c
    have held {k : LinkCmd} (c : choose s = .command k) : waits := linkChoose_command rests c
    refine ⟨fun ready r => ?_, fun sending ready r => ⟨fun owed => ?_, fun owed pause => ⟨fun j run => ?_, fun j run => ?_,
      fun j => ?_⟩, fun owed pause => ?_⟩, fun sending inRun => ⟨fun owed => ?_,
      fun owed pause r run => ⟨fun used large => ?_, fun used small => ?_, fun left sealed full => ?_,
      fun i b left sealed free dataOver oldest => ?_, fun left sealed => ⟨fun runs => ?_, fun idle limit => ?_,
      fun idle limit => ?_⟩⟩⟩, fun paused ready r => ⟨fun recover owed pause => ?_, fun stays => ?_⟩, fun paused inRun => ?_,
      fun j state => ?_, fun ready inRun => ?_⟩
    · exact held (choose_readback ready r)
    · exact held ((choose_ready s ready sending r).trans (if_pos owed))
    · have c : choose s = .boundary := by rw [choose_ready s ready sending r, if_neg (by simp [owed]), if_pos pause]
      exact (linkChoose_boundary rests c).trans (quiescent_pausing (s := { s with link.idle := none }) j run)
    · have c : choose s = .boundary := by rw [choose_ready s ready sending r, if_neg (by simp [owed]), if_pos pause]
      exact (linkChoose_boundary rests c).trans (quiescent_pausing_idle (s := { s with link.idle := none }) j run)
    · have c : choose s = .boundary := by rw [choose_ready s ready sending r, if_neg (by simp [owed]), if_pos pause]
      exact (linkChoose_boundary rests c).trans (quiescent_sends (s := { s with link.idle := none }) sending j)
    · have c := choose_ready s ready sending r
      rw [if_neg (by simp [owed]), if_neg (by simp [pause])] at c
      by_cases block : (hasSealed s && decide (0 < freeBlocks s)) = true
      · exact held (c.trans (if_pos block))
      · exact nothing (c.trans (if_neg block))
    · by_cases owes : commitOwed s = true ∨ s.link.pauseReq = true
      · exact held (choose_inRun_end s inRun sending owes)
      · rw [not_or, Bool.not_eq_true, Bool.not_eq_true] at owes
        obtain ⟨unowed, pause⟩ := owes
        rcases owed with h | h | run
        · simp [h] at unowed
        · simp [h] at pause
        · exact nothing (choose_noRun inRun sending unowed pause run)
    · refine held (k := .endRun) ?_
      rw [choose_inRun s r inRun sending owed pause run, if_pos used, if_neg (by omega)]
    · have c : choose s = .closeRun := by rw [choose_inRun s r inRun sending owed pause run, if_pos used, if_pos small]
      exact linkChoose_closes rests c
    · have c := choose_inRun s r inRun sending owed pause run
      rw [if_neg left, if_pos sealed] at c
      by_cases free : 0 < freeBlocks s
      · refine (linkChoose_block rests (c.trans (if_pos free))).trans (if_pos ?_)
        exact full.resolve_left (by omega)
      · exact nothing (c.trans (if_neg free))
    · have c : choose s = .block := by
        rw [choose_inRun s r inRun sending owed pause run, if_neg left, if_pos sealed, if_pos free]
      refine (linkChoose_block rests c).trans ((if_neg (by simp [dataOver])).trans ?_)
      exact startBlock_eq (s := { s with link.idle := none }) oldest
    · have c : choose s = .idle := by
        rw [choose_inRun s r inRun sending owed pause run, if_neg left, if_neg (by simp [sealed])]
      exact (linkChoose_idle rests c).trans (startIdle_runs true (by exact runs))
    · have c : choose s = .idle := by
        rw [choose_inRun s r inRun sending owed pause run, if_neg left, if_neg (by simp [sealed])]
      exact (linkChoose_idle rests c).trans (startIdle_ends true idle limit)
    · have c : choose s = .idle := by
        rw [choose_inRun s r inRun sending owed pause run, if_neg left, if_neg (by simp [sealed])]
      exact (linkChoose_idle rests c).trans (startIdle_starts true idle limit)
    · have c : choose s = .boundary := by
        rw [choose_paused ready paused r, if_pos recover, if_neg (by simp [owed]), if_pos pause]
      exact (linkChoose_boundary rests c).trans (quiescent_recovering (s := { s with link.idle := none }) paused recover)
    · have c := choose_paused ready paused r
      by_cases recover : s.journal.slot.status = .running ∧ s.journal.slot.code = 9
      · rw [if_pos recover] at c
        by_cases owed : commitOwed s = true
        · exact held (c.trans (if_pos owed))
        · rw [if_neg owed] at c
          refine nothing (c.trans (if_neg ?_))
          rcases stays with h | h | h
          · exact absurd recover h
          · exact absurd h owed
          · simp [h]
      · exact nothing (c.trans (if_neg recover))
    · exact nothing (choose_inRun_resting inRun (by simp [sendingState, paused]))
    · cases r : s.link.readback with
      | none => exact nothing (choose_resting j r)
      | some a =>
        rcases state with ready | inRun
        · exact held (choose_readback ready (by rw [r]; rfl))
        · exact nothing (choose_inRun_resting inRun (by rcases j with j | j | j <;> simp [sendingState, j]))
    · exact nothing (choose_elsewhere ready inRun)

end Sys2Proof.Machine
end

section
/-! PROOFS. The responses of the store: transport errors and their retries, failed commands, and what a good response does. -/

namespace Sys2Proof.Machine

/-! ## Transport errors -/

/-- The commands whose transport errors count in the send count (R154, R166). -/
theorem transportError_run {c : LinkCmd} (h : c = .writeRun ∨ c = .endRun ∨ c = .commit ∨ c = .readOne) (k : LinkErr)
    (s : State) : transportError k c s = retryOrFail k c s := by
  rcases h with rfl | rfl | rfl | rfl <;> rfl

/-- The commands of the initialisation, whose errors count in the consecutive count (R137). -/
theorem transportError_init {c : LinkCmd} (h : c = .ident ∨ c = .setup ∨ c = .status) (k : LinkErr) (s : State) :
    transportError k c s = initTransport k c s := by
  rcases h with rfl | rfl | rfl <;> rfl

theorem initTransport_within {k : LinkErr} {c : LinkCmd} {s : State}
    (h : s.link.consecutive + 1 ≤ s.link.initValues.retryLimit.toNat) (e : (s.link.initExpired && c == .ident) = false) :
    initTransport k c s =
      { s with
        link.phase := .gap c
        link.consecutive := s.link.consecutive + 1
        link.lastError := some
          ⟨k, c, s.link.sentTag, none, none, s.link.consecutive + 1, s.link.state, s.journal.state, .retry⟩
        counters := countersWith [(.linkErrors, 1), (.retries, 1)] s
        events.flags := flagsWith [.linkError] s } := by
  unfold initTransport
  simp only [if_neg (Nat.not_lt.2 h), e]
  rfl

theorem initTransport_beyond {k : LinkErr} {c : LinkCmd} {s : State}
    (h : s.link.initValues.retryLimit.toNat < s.link.consecutive + 1) :
    initTransport k c s =
      withFault ⟨k, c, s.link.sentTag, none, none, s.link.consecutive + 1, s.link.state, s.journal.state, .fault⟩
        { s with link.consecutive := s.link.consecutive + 1 } := by
  unfold initTransport
  simp only [if_pos h]
  exact enterFault_eq k c s.link.sentTag none none _ { s with link.consecutive := s.link.consecutive + 1 }

/-- Settles O40: by the count that the command's errors enter. -/
theorem transportErrorsRetried : Obligations.TransportErrorsRetried := by
  intro c k h s high window due failure retried
  have handled := exec_transportFailure h k c s high window due failure
  refine ⟨fun kind within => ?_, fun kind within => ?_⟩
  · rw [handled, transportError_run kind, retryOrFail_within k c s within]; rfl
  · have start : c = .ident ∨ c = .setup ∨ c = .status := by
      rcases kind with rfl | rfl | ⟨rfl, -⟩ <;> simp
    have unexpired : (s.link.initExpired && c == .ident) = false := by
      rcases kind with rfl | rfl | ⟨-, h⟩ <;> simp [*]
    rw [handled, transportError_init start, initTransport_within within unexpired]; rfl

/-! ## Failed commands -/

theorem retryOrFail_beyond {k : LinkErr} {c : LinkCmd} {s : State} (h : s.words.retryLimit.toNat < s.link.sendCount + 1) :
    retryOrFail k c s = commandFails c (linkError k c s.link.sentTag none (commandAddress c s) (s.link.sendCount + 1)
      (failOutcome c) { s with link.sendCount := s.link.sendCount + 1 }) := by
  unfold retryOrFail
  simp only [if_neg (Nat.not_le.2 h)]
  rfl

/-- END_RUN that fails begins an initialisation of a running link (R156). -/
theorem endRun_fails {s : State} (abandoned : s.link.abandoning = false) (off : s.link.state ≠ .off) :
    commandFails .endRun s = withInit s :=
  (beginInit_eq s).trans (begunInit_running s abandoned off)

theorem readOne_fails {s : State} (run : s.journal.slot.status = .running) :
    commandFails .readOne s =
      { s with
        link.state := .ready
        link.phase := .rest true true
        link.readback := none
        journal.slot := endedSlot .failed (some .readError) 0 s
        events.flags := flagsWith [.commandDone] s } :=
  endReadback_failed s .failed _ run (by simp)

/-- A status error of a command other than END_RUN with ERR_WRITE has the command's own outcome. -/
theorem statusError_run {k : LinkErr} {c : LinkCmd} {w : Word} {s : State}
    (h : c = .writeRun ∨ c = .commit ∨ c = .readOne ∨ (c = .endRun ∧ statusErrWrite w = false)) :
    statusError k c w s = commandFails c (linkError k c s.link.sentTag none (commandAddress c s) (s.link.sendCount + 1)
      (failOutcome c) s) := by
  rcases h with rfl | rfl | rfl | ⟨rfl, h⟩
  · rfl
  · rfl
  · rfl
  · simp only [statusError, h, Bool.and_false]; rfl

theorem statusError_lost {k : LinkErr} {w : Word} {s : State} (h : statusErrWrite w = true) :
    statusError k .endRun w s =
      withFault ⟨k, .endRun, s.link.sentTag, none, none, s.link.sendCount + 1, s.link.state, s.journal.state, .fault⟩ s := by
  simp only [statusError, h, Bool.and_true]
  exact enterFault_eq k .endRun s.link.sentTag none none _ s

/-- Settles O41: by the command that failed. -/
theorem failedCommandsEscalate : Obligations.FailedCommandsEscalate := by
  intro c k s high window due detail init n readFails
  refine ⟨fun h failure command beyond => ?_, fun h bits row transport status => ?_⟩
  · intro t
    have handled := exec_transportFailure h k c s high window due failure
    refine ⟨fun kind => ?_, fun kind abandoned off => ?_, fun kind run => ?_⟩
    · rw [handled]
      cases c with
      | ident | setup | status => exact congrArg _ (initTransport_beyond beyond)
      | writeRun | commit => exact congrArg _ ((retryOrFail_beyond beyond).trans (enterFault_eq k _ _ none _ _ t))
      | resetStore => exact absurd rfl command
      | endRun | readOne => simp [init] at kind
    · subst kind
      rw [handled]
      exact congrArg _ ((retryOrFail_beyond beyond).trans (endRun_fails (by exact abandoned) (by exact off)))
    · subst kind
      rw [handled]
      exact congrArg _ ((retryOrFail_beyond beyond).trans (readOne_fails (by exact run)))
  · intro t lost
    have handled : exec h s = .next (statusError k c (shortStatus bits) t) := by
      rw [exec_responseRow h bits c s high window due row, transport]
      simp only [status]
      rfl
    rw [handled]
    refine ⟨fun kind => ?_, fun kind wrote abandoned off => ?_, fun kind run => ?_⟩
    · cases c with
      | resetStore | ident => cases row
      | setup | status => exact congrArg _ (enterFault_eq k _ s.link.sentTag none none _ t)
      | writeRun | commit =>
        exact congrArg _ ((statusError_run (by simp)).trans (enterFault_eq k _ s.link.sentTag none _ _ t))
      | endRun => exact congrArg _ (statusError_lost (by simpa [init] using kind))
      | readOne => simp [init] at kind
    · subst kind
      exact congrArg _ ((statusError_run (by simpa using wrote)).trans (endRun_fails (by exact abandoned) (by exact off)))
    · subst kind
      exact congrArg _ ((statusError_run (by simp)).trans (readOne_fails (by exact run)))

/-! ## Good short responses -/

theorem inWindow_elsewhere {c : LinkCmd} {s : State} (f : State → State) (h : s.link.phase ≠ .window c) :
    inWindow c f s = s := if_neg h

theorem windowTimeout_elsewhere {s : State} (h : ∀ c, s.link.phase ≠ .window c) : windowTimeout s = s := by
  unfold windowTimeout
  split
  · exact absurd ‹_› (h _)
  · rfl

/-- The link READY after an initialisation (R141). -/
def withReady (s : State) : State :=
  { s with link.state := .ready, link.phase := .rest true true, link.consecutive := 0, link.recovery := false }

/-- A READBACK, or work that the journal goes on with, needs no signal. -/
theorem initSucceeds_goes_on {s : State} (h : s.link.readback.isSome = true ∨ s.journal.state = .active ∨
    s.journal.state = .pausing ∨ s.journal.state = .draining) : initSucceeds s = linkChoose (withReady s) := by
  refine congrArg linkChoose ?_
  rcases h with h | h | h | h
  · exact if_pos h
  all_goals
    simp only [restIn, h]
    exact ite_self _

theorem initSucceeds_starting {s : State} (r : s.link.readback = none) (run : s.journal.slot.status = .running)
    (h : s.journal.state = .starting) :
    initSucceeds s = linkChoose
      { withReady s with
        journal.state := .active
        journal.slot := endedSlot .done none (positionWord s.space.origin) s
        events.flags := flagsWith [.commandDone] s } := by
  refine congrArg linkChoose ?_
  simp [restIn, r, h, startReady, endRunning, running, run, raiseIf, endedSlot, flagsWith, withReady]

theorem initSucceeds_recovered {s : State} (r : s.link.readback = none) (h : s.journal.state = .faulted) :
    initSucceeds s = linkChoose (recovered (withReady s)) := by
  refine congrArg linkChoose ?_
  simp [restIn, r, h, withReady]

/-- A RECOVER that returns to ACTIVE or DRAINING is DONE (R185). -/
theorem recovered_running {s : State} {r : Resume} (h : s.journal.resume = some r) (p : r ≠ .paused)
    (run : s.journal.slot.status = .running) :
    recovered s =
      { s with
        link.pauseReq := false
        link.attempts := 0
        journal.state := if r = .active then .active else .draining
        journal.resume := none
        journal.slot := endedSlot .done none 0 s
        events.flags := flagsWith [.commandDone] s } := by
  unfold recovered
  rw [h]
  cases r with
  | paused => exact absurd rfl p
  | active | draining => simp [endRunning, running, run, raiseIf, endedSlot, flagsWith, resumeTarget]

theorem recovered_paused {s : State} (h : s.journal.resume = some .paused) :
    recovered s =
      { s with journal.state := .paused, journal.resume := none, link.pauseReq := true, link.attempts := 0 } := by
  unfold recovered; rw [h]

/-- Settles O42: outside the window nothing, and in it by command. -/
theorem shortResponsesTaken : Obligations.ShortResponsesTaken := by
  refine ⟨fun bits c h s row other => ?_, fun s other => ?_, fun bits c h s high window due row transport status => ?_⟩
  · rw [exec_liveOp (liveOp_responseRow row), shortResponse, inWindow_elsewhere _ other, ite_self]
  · rw [exec_liveOp (f := windowTimeout) rfl, windowTimeout_elsewhere other, ite_self]
  · intro t
    have taken : exec h s = .next (takenBy c t) := by
      rw [exec_responseRow h bits c s high window due row, transport]
      simp only [status]
      rfl
    rw [taken]
    refine ⟨?_, ?_, ?_, ?_, ?_, ?_⟩
    · rintro rfl; rfl
    · rintro rfl; rfl
    · rintro rfl; rfl
    · rintro rfl; rfl
    · rintro rfl; rfl
    · rintro rfl
      refine ⟨fun h => congrArg _ (initSucceeds_goes_on h), fun r run => ⟨fun j => ?_, fun next j resume other => ?_,
        fun j resume => ?_⟩⟩
      · exact congrArg _ (initSucceeds_starting (s := t) r run j)
      · refine congrArg _ ((initSucceeds_recovered (s := t) r j).trans (congrArg linkChoose ?_))
        exact recovered_running (s := withReady t) resume other run
      · refine congrArg _ ((initSucceeds_recovered (s := t) r j).trans (congrArg linkChoose ?_))
        exact recovered_paused (s := withReady t) resume

/-! ## The identity and the init limit -/

/-- INIT_TIMEOUT and IDENT_MISMATCH bring FAULT. -/
theorem initFails_eq (k : LinkErr) (c : LinkCmd) (s : State) :
    initFails k c s =
      withFault ⟨k, c, s.link.sentTag, none, none, s.link.consecutive + 1, s.link.state, s.journal.state, .fault⟩ s :=
  enterFault_eq k c s.link.sentTag none none _ s

/-- The identity's serial is asked for outside STOPPED and STARTING, with an identity kept for the generation. -/
theorem serialAgrees_eq {i : Identity} {s : State} (h : s.journal.state ≠ .stopped ∧ s.journal.state ≠ .starting)
    {g : Identity} (kept : s.link.genStoreId = some g) : serialAgrees i s = (g.serial == i.serial) := by
  unfold serialAgrees
  rw [kept]
  split
  · exact absurd ‹_› h.1
  · exact absurd ‹_› h.2
  all_goals rfl

theorem serialAgrees_unasked {i : Identity} {s : State} (h : ¬ (s.journal.state ≠ .stopped ∧ s.journal.state ≠ .starting)) :
    serialAgrees i s = true := by
  unfold serialAgrees
  rw [not_and_or, not_not, not_not] at h
  rcases h with h | h <;> rw [h]

section
variable {s : State} (state : s.link.state = .init) (abandoned : s.link.abandoning = false)
include state abandoned

/-- Between two frames of the poll the init limit ends the initialisation at once (R138). -/
theorem initLimit_between (h : s.link.phase = .poll ∨ s.link.phase = .gap .ident) :
    initLimit s = initFails .initTimeout .ident s := by
  unfold initLimit
  rw [if_neg (by simp [state, abandoned])]
  rcases h with h | h <;> rw [h]

/-- During a frame of the poll or its response it is found expired afterwards (R138). -/
theorem initLimit_during (h : s.link.phase = .frame .ident ∨ s.link.phase = .window .ident) :
    initLimit s = { s with link.initExpired := true } := by
  unfold initLimit
  rw [if_neg (by simp [state, abandoned])]
  rcases h with h | h <;> rw [h]

end

/-- A transport error of IDENT during which the init limit expired: INIT_TIMEOUT follows (R138). -/
theorem initTransport_expired {k : LinkErr} {s : State} (h : s.link.consecutive + 1 ≤ s.link.initValues.retryLimit.toNat)
    (e : s.link.initExpired = true) :
    initTransport k .ident s =
      withFault ⟨.initTimeout, .ident, s.link.sentTag, none, none, s.link.consecutive + 1 + 1, s.link.state,
          s.journal.state, .fault⟩
        (withError ⟨k, .ident, s.link.sentTag, none, none, s.link.consecutive + 1, s.link.state, s.journal.state, .fault⟩
          { s with link.consecutive := s.link.consecutive + 1 }) :=
  ((if_neg (Nat.not_lt.2 h)).trans (if_pos (by rw [e]; rfl))).trans (initFails_eq _ _ _)

/-- Settles O43: by the identity, the window, and the init limit. -/
theorem identityAndInitLimit : Obligations.IdentityAndInitLimit := by
  intro bits s high i v size width asked fault
  refine ⟨fun window due transport => ?_, fun other => ?_, fun h k window due expired failure => ?_,
    fun state abandoned => ⟨fun phase => ?_, fun phase => ?_⟩, fun state => ?_⟩
  · have taken : exec (.identResponse bits) s = .next (identTaken i s) := by
      rw [exec_live rfl high, identResponse, inWindow_eq s _ _ window due]
      simp only [transport]
      rfl
    rw [taken]
    have good : identityGood i { s with link.consecutive := 0 } = (size && width && serialAgrees i s) := rfl
    refine ⟨fun expired => ?_, fun expired => ⟨fun zero => ?_, fun kept fits wide agrees => ?_, fun kept bad => ?_⟩⟩
    · exact congrArg _ ((if_pos expired).trans (initFails_eq _ _ _))
    · exact congrArg _ ((if_neg (by simp [expired])).trans (if_pos zero))
    · have serial : serialAgrees i s = true := by
        by_cases ask : asked
        · obtain ⟨g, hg, same⟩ := agrees ask
          rw [serialAgrees_eq ask hg, same, beq_self_eq_true]
        · exact serialAgrees_unasked ask
      refine congrArg _ ((if_neg (by simp [expired])).trans ((if_neg kept).trans (if_pos ?_)))
      rw [good, fits, wide, serial]; rfl
    · refine congrArg _ ((if_neg (by simp [expired])).trans ((if_neg kept).trans ((if_neg ?_).trans (initFails_eq _ _ _))))
      rw [good]
      rcases bad with h | h | ⟨ask, g, hg, differ⟩
      · simp [h]
      · simp [h]
      · simp [serialAgrees_eq ask hg, differ]
  · rw [exec_live rfl high, identResponse, inWindow_elsewhere _ other]
  · intro n t
    rw [exec_transportFailure h k .ident s high window due failure]
    exact ⟨fun within => congrArg _ (initTransport_expired within expired),
      fun beyond => congrArg _ (initTransport_beyond beyond)⟩
  · exact (exec_live rfl high).trans (congrArg _ ((initLimit_between state abandoned phase).trans (initFails_eq _ _ s)))
  · exact (exec_live rfl high).trans (congrArg _ (initLimit_during state abandoned phase))
  · rw [exec_live rfl high, initLimit, if_pos (by simp [state])]

end Sys2Proof.Machine
end

section
/-! PROOFS. A block on its way: out, its token, its busy wait, and a block in. -/

namespace Sys2Proof.Machine

/-! ## A block out -/

theorem dataGapEnds_inRun {g d : Bool} {s : State} (h : s.link.phase = .rest g d) (r : s.link.state = .inRun) :
    dataGapEnds s = linkChoose { s with link.phase := .rest g false } := by
  unfold dataGapEnds
  rw [h]
  exact if_pos r

theorem idleExpires_runs {g d : Bool} {x : Timer} {s : State} (h : s.link.phase = .rest g d) (i : s.link.idle = some x) :
    idleExpires s = endIdleRun g s := by
  unfold idleExpires; rw [h, i]

theorem idleExpires_stopped {s : State} (h : s.link.idle = none) : idleExpires s = s := by
  unfold idleExpires
  split
  · rw [h] at *; contradiction
  · rfl

/-- Settles O44: the block that starts out, its end, and the idle limit. -/
theorem blockGoesOut : Obligations.BlockGoesOut := by
  intro s high
  refine ⟨fun gap d r i b rests inRun sending owed pause run left sealed oldest free => ?_, fun serial addr out => ?_,
    fun gap d x rests runs => ?_, fun stopped => ?_, fun away => ⟨?_, ?_⟩, fun away => ?_⟩
  · have block : choose s = .block := by
      rw [choose_inRun s r inRun sending owed pause run, if_neg left, if_pos sealed, if_pos free]
    rw [exec_live rfl high, dataGapEnds_inRun rests inRun]
    have starts := linkChoose_block (s := { s with link.phase := .rest gap false }) rfl block
    exact congrArg _ (starts.trans (startBlock_eq oldest))
  · rw [exec_live rfl high, blockOutEnds, out]
  · intro u
    rw [exec_live rfl high, idleExpires_runs rests runs]
    cases gap <;> rfl
  · rw [exec_live rfl high, idleExpires_stopped stopped]
  · rw [exec_live rfl high, idleExpires]
    split
    · exact absurd ‹_› (away _ _)
    · rfl
  · rw [exec_live rfl high, dataGapEnds]
    split
    · exact absurd ‹_› (away _ _)
    · rfl
  · rw [exec_live rfl high, blockOutEnds]
    split
    · exact absurd ‹_› (away _ _)
    · rfl

/-! ## Tokens -/

theorem inTokenWindow_elsewhere {s : State} (f : Word → Word → State → State)
    (h : ∀ serial addr, s.link.phase ≠ .token serial addr) : inTokenWindow f s = s := by
  unfold inTokenWindow
  split
  · exact absurd ‹_› (h _ _)
  · rfl

/-- A token row outside the token window changes nothing (R116). -/
theorem exec_token_elsewhere {c : Instr} {f : Word → Word → State → State} {s : State}
    (row : liveOp c = some (inTokenWindow f)) (h : ∀ serial addr, s.link.phase ≠ .token serial addr) :
    exec c s = .next s := by
  rw [exec_liveOp row, inTokenWindow_elsewhere f h, ite_self]

theorem acceptMarker_eq (serial : Word) (m : Marker) :
    acceptMarker serial m = if m.serial = some serial ∧ m.state = .sealed then { m with state := .accepted } else m := by
  simp [acceptMarker]

/-- Settles O45: the accepted block, and the Framer that waited for its slot. -/
theorem acceptFreesAndAdvances : Obligations.AcceptFreesAndAdvances := by
  refine ⟨fun s away => exec_token_elsewhere rfl away,
    fun serial addr i b s high token flying => ?_⟩
  intro ch used low leaves notifies t
  have accepted : acceptToken serial addr s = if framerWaiting s then framerStep t else t := by
    have advanced := advanceHead_eq (setSlot i .free s)
    unfold acceptToken
    rw [flying]
    simp only [advanced, funext (acceptMarker_eq serial)]
    rfl
  rw [exec_live rfl high, takeToken_eq .accept serial addr s token, accepted]

/-- Settles O46: by the token, and by the retry limit. -/
theorem failedBlocksRecoverOrFault : Obligations.FailedBlocksRecoverOrFault := by
  refine ⟨fun s away => ⟨exec_token_elsewhere rfl away, exec_token_elsewhere rfl away, exec_token_elsewhere rfl away,
    exec_token_elsewhere rfl away, fun code e => exec_token_elsewhere rfl away⟩,
    fun serial addr i b h k awaits s high token flying kinds => ?_⟩
  intro n tag detail u
  have fails : exec h s = .next (blockFails k awaits serial addr s) := by
    rcases kinds with kind | kind | kind | kind | ⟨code, e, invalid, kind⟩ <;> cases kind
    · rw [exec_live rfl high, takeToken_eq .crcBad serial addr s token]
    · rw [exec_live rfl high, takeToken_eq .writeFail serial addr s token]
    · rw [exec_live rfl high, inTokenWindow, token]
    · rw [exec_live rfl high, takeToken_eq .range serial addr s token]
    · rw [exec_live rfl high, invalid, takeToken_eq .invalid serial addr s token]
  have range : h ≠ .range ↔ k ≠ .tokenRange := by
    rcases kinds with kind | kind | kind | kind | ⟨code, e, invalid, kind⟩ <;> cases kind <;> simp
  rw [fails]
  refine ⟨fun other within => congrArg _ (blockFails_within k awaits serial addr s i b flying (range.1 other) within),
    fun beyond => congrArg _ (blockFails_beyond k awaits serial addr s i b flying ?_)⟩
  exact beyond.imp_left (not_imp_not.1 range.2)

end Sys2Proof.Machine
end

section
/-! PROOFS. The ends of busy waits, the COMMIT that succeeds, and the ends of READBACK. -/

namespace Sys2Proof.Machine

/-! ## Busy waits -/

section
variable {s : State} {serial addr : Word} {limit : Nat}

theorem busyEnds_token (h : s.link.phase = .busyToken serial addr limit) : busyEnds s = tokenBusyEnds s := by
  unfold busyEnds; rw [h]

theorem busyEnds_command {c : LinkCmd} (h : s.link.phase = .busyCmd c limit) : busyEnds s = commandBusyEnds c s := by
  unfold busyEnds; rw [h]

theorem busyExpires_token (h : s.link.phase = .busyToken serial addr limit) :
    busyExpires s = tokenBusyTimeout serial addr s := by
  unfold busyExpires; rw [h]

theorem busyExpires_command {c : LinkCmd} (h : s.link.phase = .busyCmd c limit) :
    busyExpires s = commandBusyTimeout c s := by
  unfold busyExpires; rw [h]

end

section
variable {s : State} (token : ∀ serial addr limit, s.link.phase ≠ .busyToken serial addr limit)
  (command : ∀ c limit, s.link.phase ≠ .busyCmd c limit)
include token command

theorem busyEnds_elsewhere : busyEnds s = s := by
  unfold busyEnds
  split
  · exact absurd ‹_› (token _ _ _)
  · exact absurd ‹_› (command _ _)
  · rfl

theorem busyExpires_elsewhere : busyExpires s = s := by
  unfold busyExpires
  split
  · exact absurd ‹_› (token _ _ _)
  · exact absurd ‹_› (command _ _)
  · rfl

end

/-- The busy of an accepted block ends: a counted run that is used up is over (R147). -/
theorem tokenBusyEnds_programming {s : State} {r : Run} (h : s.link.state = .programming) (run : s.link.run = some r) :
    tokenBusyEnds s =
      if r.count ≤ 255 ∧ r.remaining = 0 then linkChoose (restIn .ready { s with link.run := none })
      else linkChoose (restIn .inRun s) := by
  unfold tokenBusyEnds
  rw [h, run]
  simp

theorem tokenBusyEnds_recovering {s : State} (h : s.link.state = .recovering) : tokenBusyEnds s = closeAfterFailure s := by
  unfold tokenBusyEnds; rw [h]

/-- Settles O47: by the wait that ends. -/
theorem busyWaitsEnd : Obligations.BusyWaitsEnd := by
  intro s high
  refine ⟨fun serial addr limit wait => ⟨fun state r run => ⟨fun counted used => ?_, fun more => ?_⟩, fun state => ?_⟩,
    fun limit wait => ?_, fun token command => ?_⟩
  · rw [exec_live rfl high, busyEnds_token wait, tokenBusyEnds_programming state run, if_pos ⟨counted, used⟩]
    rfl
  · rw [exec_live rfl high, busyEnds_token wait, tokenBusyEnds_programming state run, if_neg (by omega)]
    rfl
  · rw [exec_live rfl high, busyEnds_token wait, tokenBusyEnds_recovering state]
    rfl
  · rw [exec_live rfl high, busyEnds_command wait]
    rfl
  · rw [exec_live rfl high, busyEnds_elsewhere token command]

/-- Settles O49: by the wait whose limit expires. -/
theorem busyLimitExpires : Obligations.BusyLimitExpires := by
  intro s high
  refine ⟨fun serial addr limit wait => ?_, fun limit wait abandoned off => ?_, fun limit wait => ?_,
    fun token command => ?_⟩
  · rw [exec_live rfl high, busyExpires_token wait]
    rfl
  · rw [exec_live rfl high, busyExpires_command wait]
    exact congrArg _ (endRun_fails (by exact abandoned) (by exact off))
  · rw [exec_live rfl high, busyExpires_command wait]
    exact congrArg _ (enterFault_eq .busyTimeout .commit _ none none _ s)
  · rw [exec_live rfl high, busyExpires_elsewhere token command]

/-! ## A COMMIT that succeeds -/

/-- Released markers do one of three things to the held write: nothing, its forwarding, or another hold. -/
theorem withReleased_cases (gone : List Marker) (s : State) :
    withReleased gone s = s ∨ (∃ w, withReleased gone s = withForwarded w s) ∨
      ∃ h, withReleased gone s = { s with held := h } := by
  unfold withReleased
  split
  · split
    · exact .inr (.inl ⟨_, rfl⟩)
    · exact .inl rfl
  · split
    · exact .inr (.inr ⟨_, rfl⟩)
    · exact .inl rfl
  · exact .inl rfl

theorem withReleased_none {gone : List Marker} {s : State} (h : s.held = none) : withReleased gone s = s := by
  unfold withReleased; rw [h]

theorem withReleased_fence {gone : List Marker} {s : State} {w : WriteTxn} {m : Marker} {tm : Option Timer}
    (h : s.held = some ⟨w, .fence m.epoch, tm⟩) (departs : m ∈ gone) (fenced : m.fenced = true) :
    withReleased gone s = withForwarded w s := by
  unfold withReleased
  rw [h]
  exact if_pos (List.any_eq_true.2 ⟨m, departs, by simp [fenced]⟩)

theorem withReleased_marker {gone : List Marker} {s : State} {w : WriteTxn} {i : Fin 4} {tm : Option Timer}
    (h : s.held = some ⟨w, .marker i, tm⟩) (room : s.markers.entries.length < 16) :
    withReleased gone s = { s with held := some ⟨w, .admitMark i, tm⟩ } := by
  unfold withReleased
  rw [h]
  exact if_pos room

theorem restIn_withReleased (gone : List Marker) (st : LinkState) (s : State) :
    restIn st (withReleased gone s) = withReleased gone (restIn st s) := by
  unfold withReleased
  have kept : (restIn st s).held = s.held := rfl
  rw [kept]
  split
  · split <;> rfl
  · by_cases room : s.markers.entries.length < 16
    · rw [if_pos room, if_pos (by exact room)]; rfl
    · rw [if_neg room, if_neg (by exact room)]
  · rfl

/-- The FINAL marker became DURABLE: the generation ends, and STOP, if it is running, is DONE (R93, R181). -/
theorem stopCompletes_eq (s : State) :
    let stop : Bool := s.journal.slot.status == .running && s.journal.slot.code == 2
    stopCompletes s =
      { s with
        journal.state := .stopped
        journal.resume := none
        journal.slot := if stop then endedSlot .done none 0 s else s.journal.slot
        capture.openRec := none
        capture.openGap := none
        staging.queue := []
        staging.finalMark := .none
        rtq.tracking := s.rtq.tracking.map fun e => { e with ended := true }
        events.flags := flagsWith (if stop then [.commandDone] else []) s } := by
  intro stop
  have same : runningCode codeStop s = stop := rfl
  unfold stopCompletes
  rw [same]
  cases h : stop with
  | false => rfl
  | true =>
    have run : s.journal.slot.status = .running := by simp [stop] at h; exact h.1
    simp only [if_true, endRunning_done run]
    rfl

/-- What a COMMIT moves first: the boundary, and its count (R109, R151). -/
theorem moveBoundary_commits {s : State} {p : Pos} (h : s.space.recordedHead = some p) :
    moveBoundary (bump .commits 1 s) =
      { s with
        counters := countersWith [(.commits, 1)] s
        space.boundary := p
        space.durableUsed := s.space.used
        space.recordedHead := none } := by
  unfold moveBoundary
  simp only [bump_keeps, h]
  rfl

/-- No marker becomes DURABLE without a newest one. -/
theorem makeDurable_none {s : State} (h : durableMarkers s = []) :
    makeDurable s = { s with markers.entries := stayingMarkers s, markers.commitEpoch := none } := by
  unfold makeDurable
  simp only [h, List.getLast?_nil]

theorem makeDurable_some {s : State} {m : Marker} (h : (durableMarkers s).getLast? = some m) :
    makeDurable s =
      let t := withReleased (durableMarkers s)
        { s with
          markers.entries := stayingMarkers s
          markers.commitEpoch := none
          markers.durableEpoch := m.epoch
          markers.durableTag := m.tag
          events.flags := flagsWith [.epochDurable] s }
      if (durableMarkers s).any (·.final) then stopCompletes t else t := by
  unfold makeDurable
  simp only [h, releaseHeld_eq]
  rfl

theorem durableMarkers_some {s : State} {e : Word} (h : s.markers.commitEpoch = some e) :
    durableMarkers s = s.markers.entries.filter fun m => decide (m.epoch ≤ e) := by
  unfold durableMarkers; rw [h]

theorem stayingMarkers_some {s : State} {e : Word} (h : s.markers.commitEpoch = some e) :
    stayingMarkers s = s.markers.entries.filter fun m => decide (e < m.epoch) := by
  unfold stayingMarkers
  rw [h]
  exact congrArg (fun f => s.markers.entries.filter f) (funext fun m => by simp [← BitVec.not_le])

/-- Settles O48: without markers that become DURABLE, with some, and with the FINAL one among them. -/
theorem commitSucceeds_holds : Obligations.CommitSucceeds := by
  intro limit p s high wait head moved
  let u : State :=
    { s with
      counters := countersWith [(.commits, 1)] s
      space.boundary := p
      space.durableUsed := s.space.used
      space.recordedHead := none }
  have ends : exec .busyEnd s = .next (linkChoose (restIn .ready (makeDurable u))) := by
    rw [exec_live rfl high, busyEnds_command wait]
    exact congrArg (fun x => (.next (linkChoose (restIn .ready (makeDurable x))) : Result)) (moveBoundary_commits head)
  have quiet (gone : durableMarkers u = []) (stay : stayingMarkers u = s.markers.entries) :
      exec .busyEnd s = .next (linkChoose moved) := by
    rw [ends, makeDurable_none gone, stay]
    rfl
  refine ⟨fun absent => quiet ?_ ?_, fun e epoch => ?_⟩
  · unfold durableMarkers; rw [show u.markers.commitEpoch = none from absent]
  · unfold stayingMarkers; rw [show u.markers.commitEpoch = none from absent]
  intro gone
  have goes : durableMarkers u = gone := durableMarkers_some (s := u) epoch
  have stays := stayingMarkers_some (s := u) epoch
  refine ⟨fun empty => quiet (goes.trans empty) ?_, fun m newest => ?_⟩
  · rw [stays]
    refine List.filter_eq_self.2 fun x hx => ?_
    have := List.filter_eq_nil_iff.1 empty x hx
    simpa [BitVec.not_le] using this
  · intro durable after stop
    let cleared : State :=
      { u with
        markers.entries := u.markers.entries.filter fun m => decide (e < m.epoch)
        markers.commitEpoch := none
        markers.durableEpoch := m.epoch
        markers.durableTag := m.tag
        events.flags := flagsWith [.epochDurable] u }
    have released : makeDurable u =
        if gone.any (·.final) then stopCompletes (withReleased gone cleared) else withReleased gone cleared := by
      have := makeDurable_some (s := u) (goes.symm ▸ newest)
      rwa [goes, stays] at this
    have rested : restIn .ready (withReleased gone cleared) = after := restIn_withReleased gone .ready cleared
    refine ⟨fun idle => withReleased_none idle,
      fun w tm m' held departs fenced => withReleased_fence held departs fenced,
      fun w i tm held room => withReleased_marker held room, fun plain => ?_, fun final => ?_⟩
    · rw [ends, released, if_neg, rested]
      simpa using plain
    · rw [ends, released, if_pos, stopCompletes_eq, ← rested]
      · rcases withReleased_cases gone cleared with kept | ⟨w, forwarded⟩ | ⟨h, moves⟩
        · rw [kept]; rfl
        · rw [forwarded]; rfl
        · rw [moves]; rfl
      · simpa using final

/-! ## READBACK -/

theorem fitBytes_length {n : Nat} {bytes : List Byte} (h : bytes.length = n) : fitBytes n bytes = bytes := by
  subst h
  simp [fitBytes]

/-- A block in of the store's size is read back byte by byte (R131). -/
theorem memoryRead_fillBuffer {size : BlockSize} {bytes : List Byte} (h : bytes.length = blockBytes size) (k : Nat) :
    memoryRead (fillBuffer (blockBytes size) bytes) k = (bytes[k]?).getD 0 := by
  have small : bytes.length ≤ 4096 := by rw [h]; cases size <;> decide
  rw [fillBuffer, fitBytes_length h, List.take_of_length_le small, memoryRead_cellsFrom]
  rfl

/-- A READBACK that ends: the link READY, the record ended (R166, R183). -/
def withReadEnded (status : CmdStatus) (reason : Option Reason) (r0 : Word) (s : State) : State :=
  { s with
    link.state := .ready
    link.phase := .rest true true
    link.readback := none
    journal.slot := endedSlot status reason r0 s
    events.flags := flagsWith [.commandDone] s }

/-- An error in the read data window: READ_ONE again within the retry limit, else READ_ERROR (R166). -/
theorem retryOrFail_readOne {a : Word} {s : State} (k : LinkErr) (request : s.link.readback = some a)
    (run : s.journal.slot.status = .running) :
    let n := s.link.sendCount + 1
    let detail (o : ErrOutcome) : ErrorDetail :=
      ⟨k, .readOne, s.link.sentTag, none, some a, n, s.link.state, s.journal.state, o⟩
    retryOrFail k .readOne s =
      if n ≤ s.words.retryLimit.toNat then
        { s with
          link.phase := .gap .readOne
          link.sendCount := n
          link.lastError := some (detail .retry)
          counters := countersWith [(.linkErrors, 1), (.retries, 1)] s
          events.flags := flagsWith [.linkError] s }
      else withReadEnded .failed (some .readError) 0 (withError (detail .failed) { s with link.sendCount := n }) := by
  intro n detail
  have address : commandAddress .readOne s = some a := request
  by_cases within : n ≤ s.words.retryLimit.toNat
  · rw [if_pos within, retryOrFail_within k .readOne s within, address]
  · rw [if_neg within, retryOrFail_beyond (Nat.not_le.1 within), address]
    exact readOne_fails (by exact run)

/-- Settles O50: outside the read data window, at its end, and by the lines and the trailer of the block. -/
theorem readbackEnds : Obligations.ReadbackEnds := by
  refine ⟨fun b s away => ⟨?_, ?_⟩, fun a b s high window request run full => ?_⟩
  · rw [exec_liveOp (f := readBlockIn b) rfl, readBlockIn, if_neg away, ite_self]
  · rw [exec_liveOp (f := readWindowExpires) rfl, readWindowExpires, if_neg away, ite_self]
  intro ended n detail failed
  refine ⟨?_, _, exec_live (f := readBlockIn b) rfl high, ?_⟩
  · rw [exec_live rfl high, readWindowExpires, if_pos window, retryOrFail_readOne .readTimeout request run]
    rfl
  rw [readBlockIn, if_pos window]
  let filled : State := { s with buffer := fillBuffer (blockBytes s.link.setupSize) b.bytes }
  have received : blockReceived b s =
      if !blockInGood s.link.width b then retryOrFail .readCrc .readOne filled
      else if trailerAgrees b.bytes.length b.bytes then endReadback .done none filled
      else endReadback .failed (some .crcMismatch) filled := by
    unfold blockReceived
    simp only [fitBytes_length full, full]
    rfl
  have buffer : (blockReceived b s).buffer = filled.buffer := by
    refine congrArg Settings.buffer (?_ : settings (blockReceived b s) = settings filled)
    rw [received]
    split
    · exact settings_retryOrFail ..
    · split <;> exact settings_endReadback ..
  refine ⟨fun k => ?_, ?_⟩
  · rw [buffer]; exact memoryRead_fillBuffer full k
  intro u
  have same : u = filled := by simp only [u, buffer]; rfl
  rw [same, received]
  refine ⟨fun good agrees => ?_, fun good differs => ?_, fun bad => ?_⟩
  · rw [if_neg (by simp [good]), if_pos agrees]
    exact endReadback_done filled a run request
  · rw [if_neg (by simp [good]), if_neg (by simp [differs])]
    exact endReadback_failed filled .failed _ run (by simp)
  · rw [if_pos (by simp [bad]), retryOrFail_readOne (s := filled) .readCrc request run]
    rfl

end Sys2Proof.Machine
end

section
/-! PROOFS. The commands of the command word: PAUSE, RESUME, STOP, READBACK and RECOVER, and BUSY beside a running command. -/

namespace Sys2Proof.Machine

/-- A management row runs its operation while the port acts on frames. -/
theorem exec_port {c : Instr} {f : State → State} {s : State} (h : portOp c = some f) (acts : portOpen s = true) :
    exec c s = .next (f s) := by
  rw [exec_portOp h, if_pos acts]

/-- A command refused with no other RUNNING is in the slot record. -/
theorem refuse_free {s : State} (code : BitVec 4) (r : Reason) (free : slotFreed s = true) :
    refuse code r (nextNumber s) = withAnswer code .refused (some r) 0 0 s :=
  answerCommand_free code .refused (some r) 0 0 s free

/-- A command that the running one admits is answered by its own rule (R174). -/
theorem takeCommand_admitted (code : BitVec 4) {admitted : Bool} (own : State → State) {s : State} (h : admitted = true) :
    takeCommand code admitted own s = own (nextNumber s) := by
  subst h
  simp [takeCommand]

/-! ## PAUSE and RESUME -/

/-- A PAUSE seal of the assembling block: it stays due while staging holds a closed record (R69). -/
theorem requestPauseSeal_assembling {i : Fin 8} {d : Draft} {s : State} (assem : assembling s = some (i, d)) :
    requestPauseSeal s =
      if hasClosed s then { s with framer.due := .pause } else serveDue i d { s with framer.due := .pause } := by
  have served := serveIfDue_assembling i d { s with framer.due := .pause } assem
  unfold requestPauseSeal
  rw [assem]
  refine served.trans ?_
  have closed : hasClosed { s with framer.due := .pause } = hasClosed s := rfl
  rw [closed]
  cases hasClosed s <;> simp

theorem requestPauseSeal_none {s : State} (idle : assembling s = none) : requestPauseSeal s = s := by
  unfold requestPauseSeal; rw [idle]

/-- RESUME as its own rule answers it (R179). -/
theorem resumeOwn_taken {s : State} (h : s.journal.state = .pausing ∨ s.journal.state = .paused) :
    resumeOwn (nextNumber s) = linkChoose
      { withAnswer 5 .done none 0 0 s with
        journal.state := .active
        journal.overtaken := overtakenRecord s
        link.pauseReq := false } := by
  have taken : resumeOwn (nextNumber s) = resumeTaken (nextNumber s) := by
    have : (nextNumber s).journal.state = s.journal.state := rfl
    unfold resumeOwn
    rcases h with h | h <;> rw [this, h]
  rw [taken, resumeTaken, overtake_eq]
  rfl

theorem resumeOwn_refused {s : State} (pausing : s.journal.state ≠ .pausing) (paused : s.journal.state ≠ .paused) :
    resumeOwn s = refuse codeResume .badState s := by
  unfold resumeOwn
  split
  · exact absurd ‹_› pausing
  · exact absurd ‹_› paused
  all_goals rfl

/-- Settles O56: PAUSE and RESUME by journal state, and the seal by what staging holds. -/
theorem pauseAndResume : Obligations.PauseAndResume := by
  intro s acts
  refine ⟨fun free => ⟨fun active => ?_, fun other => ?_, fun pausing paused => ?_⟩, fun idle => requestPauseSeal_none idle,
    fun i d assem => ⟨fun closed => ?_, fun empty => ?_, fun e queue unclosed fresh => ?_⟩, fun state admitted => ?_⟩
  · rw [exec_port rfl acts, pauseCommand, takeCommand_free _ _ _ _ free]
    exact congrArg _ (if_pos active)
  · rw [exec_port rfl acts, pauseCommand, takeCommand_free _ _ _ _ free]
    exact congrArg _ ((if_neg other).trans (refuse_free codePause .badState free))
  · rw [exec_port rfl acts, resumeCommand, takeCommand_free _ _ _ _ free]
    exact congrArg _ ((resumeOwn_refused (s := nextNumber s) pausing paused).trans (refuse_free codeResume .badState free))
  · rw [requestPauseSeal_assembling assem, if_pos closed]
  · rw [requestPauseSeal_assembling assem, if_neg (by simp [hasClosed_empty empty]), serveDue_empty i d { s with framer.due := .pause } empty]
    rfl
  · intro size whole
    have serves : requestPauseSeal s = serveDue i d { s with framer.due := .pause } := by
      rw [requestPauseSeal_assembling assem, if_neg (by simp [unclosed])]
    have served := serveDue_one i d e { s with framer.due := .pause } queue fresh
    exact ⟨fun large => (serves.trans served).trans (if_neg (Nat.not_le.2 large)),
      fun fits => (serves.trans served).trans (if_pos fits)⟩
  · have own : resumeCommand s = resumeOwn (nextNumber s) := by
      rcases admitted with free | ⟨run, code⟩
      · exact takeCommand_free _ _ _ _ free
      · exact takeCommand_admitted _ _ (by simp [runningCode, running, run, code, codePause])
    rw [exec_port rfl acts, own, resumeOwn_taken state]

/-! ## STOP -/

theorem stopOwn_refused {s : State} (h : s.journal.state = .stopped ∨ s.journal.state = .faulted) :
    stopOwn s = refuse codeStop .badState s := by
  unfold stopOwn
  rcases h with h | h <;> rw [h]

theorem stopOwn_active {s : State} (h : s.journal.state = .active) :
    stopOwn s = linkChoose
      { requestPauseSeal (settleHeldForStop (runCommand codeStop { s with journal.state := .draining })) with
        staging.finalMark := .waiting } := by
  have taken : stopOwn s = stopTaken s := by unfold stopOwn; rw [h]
  have active : ¬ (s.journal.state == .paused) = true := by simp [h]
  rw [taken]
  unfold stopTaken
  simp only [if_neg active]

theorem stopOwn_paused {s : State} (h : s.journal.state = .paused) :
    stopOwn s = linkChoose
      { requestPauseSeal (settleHeldForStop (linkChoose
          { runCommand codeStop { s with journal.state := .draining } with link.pauseReq := false })) with
        staging.finalMark := .waiting } := by
  have taken : stopOwn s = stopTaken s := by unfold stopOwn; rw [h]
  have paused : (s.journal.state == .paused) = true := by simp [h]
  rw [taken]
  unfold stopTaken
  simp only [if_pos paused]

theorem stopOwn_draining {s : State} (h : s.journal.state = .draining) : stopOwn s = runCommand codeStop s := by
  unfold stopOwn; rw [h]

/-- Settles O57: STOP by journal state, and the held write by its hold. -/
theorem stopAnswered : Obligations.StopAnswered := by
  intro s acts free u drained
  have own : exec .stop s = .next (stopOwn (nextNumber s)) := by
    rw [exec_port rfl acts, stopCommand, takeCommand_free _ _ _ _ free]
  refine ⟨fun active => ?_, fun paused => ?_, fun draining => ?_, fun other => ?_, fun x => ⟨fun h => ?_,
    fun w e tm h => ?_, fun w q r t b tm h => ?_, fun w i tm h => ?_, fun w r t f tm h => ?_⟩⟩
  · exact own.trans (congrArg _ (stopOwn_active (s := nextNumber s) active))
  · exact own.trans (congrArg _ (stopOwn_paused (s := nextNumber s) paused))
  · exact own.trans (congrArg _ (stopOwn_draining (s := nextNumber s) draining))
  · exact own.trans (congrArg _ ((stopOwn_refused (s := nextNumber s) other).trans (refuse_free codeStop .badState free)))
  · rw [settleHeldForStop_eq, h]
  · rw [settleHeldForStop_eq, h]
  · rw [settleHeldForStop_eq, h]
  · rcases h with h | h <;> rw [settleHeldForStop_eq, h]
  · rw [settleHeldForStop_eq, h]

/-! ## READBACK and RECOVER -/

theorem readbackOwn_taken {s : State}
    (h : s.journal.state = .stopped ∨ s.journal.state = .paused ∨ s.journal.state = .faulted) :
    let u := runCommand codeReadback { s with link.readback := some s.argWord }
    readbackOwn s = if s.link.state = .ready then linkChoose u else beginInit u := by
  intro u
  unfold readbackOwn
  rcases h with h | h | h <;> rw [h] <;> rfl

theorem readbackOwn_refused {s : State} (h : s.journal.state = .starting ∨ s.journal.state = .active ∨
    s.journal.state = .pausing ∨ s.journal.state = .draining) : readbackOwn s = refuse codeReadback .badState s := by
  unfold readbackOwn
  rcases h with h | h | h | h <;> rw [h]

/-- A command beside a RUNNING one that excludes it (R174). -/
theorem exec_busy {h : Instr} {f : State → State} {code : BitVec 4} {s : State} (admitted : Bool) (own : State → State)
    (row : portOp h = some f) (takes : f s = takeCommand code admitted own s) (acts : portOpen s = true)
    (other : admitted = false) (run : s.journal.slot.status = .running) :
    exec h s = .next
      { s with
        journal.number := s.journal.number + 1
        journal.side := some (newRecord code .refused (some .busy) 0 0 s)
        events.flags := flagsWith [.commandDone] s } := by
  subst other
  rw [exec_port row acts, takes, takeCommand_busy code own s run]

/-- Settles O60: READBACK and RECOVER by journal state, and BUSY for every command that is not admitted. -/
theorem readbackRecoverAndBusy : Obligations.ReadbackRecoverAndBusy := by
  intro s acts
  refine ⟨fun free => ⟨fun state => ?_, fun state => ?_, fun faulted => ?_, fun other => ?_, fun code _ => ?_⟩,
    fun run h code rows => ?_⟩
  · intro u
    rw [exec_port rfl acts, readbackCommand, takeCommand_free _ _ _ _ free, ← beginInit_eq]
    exact congrArg _ (readbackOwn_taken (s := nextNumber s) state)
  · rw [exec_port rfl acts, readbackCommand, takeCommand_free _ _ _ _ free]
    exact congrArg _ ((readbackOwn_refused (s := nextNumber s) state).trans (refuse_free codeReadback .badState free))
  · rw [exec_port rfl acts, recoverCommand, takeCommand_free _ _ _ _ free, ← beginInit_eq]
    exact congrArg _ (if_pos faulted)
  · rw [exec_port rfl acts, recoverCommand, takeCommand_free _ _ _ _ free]
    exact congrArg _ ((if_neg other).trans (refuse_free codeRecover .badState free))
  · rw [exec_port rfl acts, badCodeCommand, takeCommand_free _ _ _ _ free]
    exact congrArg _ (refuse_free code .badArgument free)
  · have pauses (h : s.journal.slot.code ≠ 4) : runningCode codePause s = false :=
      Bool.and_eq_false_iff.2 (.inr (beq_eq_false_iff_ne.2 h))
    have stops (h : s.journal.slot.code ≠ 2) : runningCode codeStop s = false :=
      Bool.and_eq_false_iff.2 (.inr (beq_eq_false_iff_ne.2 h))
    rcases rows with ⟨p, g, row⟩ | row | row | ⟨row, other⟩ | ⟨tag, row⟩ | ⟨row, other⟩ | row | row | rfl
    · cases row; exact exec_busy false (startOwn p g) rfl rfl acts rfl run
    · cases row; exact exec_busy false stopOwn rfl rfl acts rfl run
    · cases row; exact exec_busy false pauseOwn rfl rfl acts rfl run
    · cases row; exact exec_busy _ resumeOwn rfl rfl acts (pauses other) run
    · cases row; exact exec_busy false (markOwn tag) rfl rfl acts rfl run
    · cases row; exact exec_busy _ reclaimOwn rfl rfl acts (stops other) run
    · cases row; exact exec_busy false readbackOwn rfl rfl acts rfl run
    · cases row; exact exec_busy false recoverOwn rfl rfl acts rfl run
    · exact exec_busy false (refuse code .badArgument) rfl rfl acts rfl run

end Sys2Proof.Machine
end

section
/-! PROOFS. HALT, SOFT_RESET, MARK, RECLAIM and START. -/

namespace Sys2Proof.Machine

/-! ## HALT and SOFT_RESET -/

/-- HALT on the path of a write, staging, the window and the Framer (R17, R23, R44, R58, R61, R75). -/
theorem haltPath_eq (s : State) :
    haltPath s =
      { s with
        held := none
        rtq :=
          ⟨s.rtq.forwardCount + (if s.held.isSome then 1 else 0), s.rtq.answerCount,
            s.rtq.tracking.map fun e =>
              { e with
                ordinal := if s.held.isSome then some (e.ordinal.getD s.rtq.forwardCount) else e.ordinal
                ended := true }, []⟩
        capture := ⟨0, 1, none, none⟩
        staging := ⟨[], true, .none, false⟩
        window := Vector.replicate 8 .free
        framer := { s.framer with serialCounter := 0, framingEpoch := 1, sealTimer := none, due := .none }
        ports.downstream := s.ports.downstream ++ heldTxn s } := by
  unfold haltPath forwardHeld heldTxn
  cases h : s.held with
  | none => simp [endTracking, h]
  | some x =>
    simp only [finishWrite_eq, endTracking, withForwarded, List.map_map]
    rfl

/-- The Link Engine as an abandonment leaves it (R168). -/
def linkOff (l : Link) : Link :=
  { l with
    state := .off, run := none, pauseReq := false, recovery := false, readback := none, attempts := 0, sendCount := 0
    idle := none }

theorem abandonLink_off {s : State} (h : s.link.state = .off) : abandonLink s = { s with link := linkOff s.link } := by
  unfold abandonLink
  simp only [h, beq_self_eq_true, if_true]
  rfl

/-- A frame, a window or a settle time in progress is let end (R128; log entry 10). -/
theorem abandonLink_waits {s : State} (h : s.link.state ≠ .off)
    (phase : s.link.phase = .settle ∨ ∃ c, s.link.phase = .frame c ∨ s.link.phase = .window c) :
    abandonLink s = { s with link := { linkOff s.link with abandoning := true, resetDue := true } } := by
  have running : ¬ (s.link.state == .off) = true := by simpa using h
  unfold abandonLink
  simp only [if_neg running]
  split
  · rfl
  · rfl
  · rfl
  all_goals rcases phase with p | ⟨c, p | p⟩ <;> simp_all

/-- Else RESET_STORE is sent at once, cutting a block out (R128). -/
theorem abandonLink_sends {s : State} (h : s.link.state ≠ .off) (settle : s.link.phase ≠ .settle)
    (other : ∀ c, s.link.phase ≠ .frame c ∧ s.link.phase ≠ .window c) :
    abandonLink s = withFrame .resetStore 0
      { s with
        link := { linkOff s.link with abandoning := true }
        ports.linkOut := s.ports.linkOut ++ cutMark s } := by
  have running : ¬ (s.link.state == .off) = true := by simpa using h
  unfold abandonLink
  simp only [if_neg running]
  split
  · exact absurd ‹_› (other _).1
  · exact absurd ‹_› (other _).2
  · exact absurd ‹_› settle
  all_goals rfl

theorem abandonLink_journal (s : State) : (abandonLink s).journal = s.journal := by
  unfold abandonLink
  dsimp only
  split
  · rfl
  · split <;> rfl

/-- The steps of HALT before the link's work is abandoned. -/
theorem haltMarkers_eq (s : State) :
    haltMarkers s =
      { s with
        markers := { s.markers with entries := [], commitEpoch := none }
        space.recordedHead := none
        events.flags := flagsWith (if s.markers.entries = [] then [] else [.markDropped]) s } := by
  unfold haltMarkers raiseIf flagsWith
  cases h : s.markers.entries <;> simp

/-- The state after HALT's steps, but for what the link still sends. -/
def withHalted (code : BitVec 4) (s : State) : State :=
  { s with
    held := none
    rtq :=
      ⟨s.rtq.forwardCount + (if s.held.isSome then 1 else 0), s.rtq.answerCount,
        s.rtq.tracking.map fun e =>
          { e with
            ordinal := if s.held.isSome then some (e.ordinal.getD s.rtq.forwardCount) else e.ordinal
            ended := true }, []⟩
    capture := ⟨0, 1, none, none⟩
    staging := ⟨[], true, .none, false⟩
    window := Vector.replicate 8 .free
    framer := { s.framer with serialCounter := 0, framingEpoch := 1, sealTimer := none, due := .none }
    markers := { s.markers with entries := [], commitEpoch := none }
    space.recordedHead := none
    link := linkOff s.link
    journal :=
      { s.journal with
        state := .stopped, resume := none, number := s.journal.number + 1, slot := newRecord code .done none 0 0 s
        overtaken := overtakenRecord s }
    events.flags := flagsWith ((if s.markers.entries = [] then [] else [.markDropped]) ++ [.commandDone]) s
    ports.downstream := s.ports.downstream ++ heldTxn s }

section
variable (code : BitVec 4) {s : State}

/-- HALT empties the path and the markers first, and then abandons the link's work. -/
theorem haltSteps_eq :
    haltSteps code s = raise .commandDone
      { abandonLink (haltMarkers (haltPath { s with
            journal := { s.journal with number := s.journal.number + 1, overtaken := overtakenRecord s } })) with
        journal :=
          { s.journal with
            state := .stopped, resume := none, number := s.journal.number + 1, slot := newRecord code .done none 0 0 s
            overtaken := overtakenRecord s } } := by
  have kept (x : State) : (abandonLink (haltMarkers (haltPath x))).journal = x.journal := by
    rw [abandonLink_journal, haltPath_eq, haltMarkers_eq]
  unfold haltSteps
  rw [overtake_eq]
  simp only [commandRecord, kept]
  rfl

theorem haltSteps_off (h : s.link.state = .off) : haltSteps code s = withHalted code s := by
  rw [haltSteps_eq, haltPath_eq, haltMarkers_eq, abandonLink_off (by exact h), withHalted, flagsWith_append]
  rfl

theorem haltSteps_waits (h : s.link.state ≠ .off)
    (phase : s.link.phase = .settle ∨ ∃ c, s.link.phase = .frame c ∨ s.link.phase = .window c) :
    haltSteps code s = { withHalted code s with link.abandoning := true, link.resetDue := true } := by
  rw [haltSteps_eq, haltPath_eq, haltMarkers_eq, abandonLink_waits (by exact h) (by exact phase), withHalted,
    flagsWith_append]
  rfl

theorem haltSteps_sends (h : s.link.state ≠ .off) (settle : s.link.phase ≠ .settle)
    (other : ∀ c, s.link.phase ≠ .frame c ∧ s.link.phase ≠ .window c) :
    haltSteps code s = withFrame .resetStore 0
      { withHalted code s with link.abandoning := true, ports.linkOut := s.ports.linkOut ++ cutMark s } := by
  rw [haltSteps_eq, haltPath_eq, haltMarkers_eq, abandonLink_sends (by exact h) (by exact settle) (by exact other),
    withHalted, flagsWith_append]
  rfl

end

/-- Settles O58: the same steps for both commands, and the link by what is in progress. -/
theorem haltAndSoftReset : Obligations.HaltAndSoftReset := by
  intro h code s x acts row off t
  have halts : exec h s = .next (haltSteps code x) ∧ t = withHalted code x ∧ x.link = s.link ∧
      s.ports.linkOut ++ cutMark s = x.ports.linkOut ++ cutMark x := by
    rcases row with row | row <;> cases row
    · exact ⟨exec_port (f := haltCommand) rfl acts, rfl, rfl, rfl⟩
    · exact ⟨exec_port (f := softResetCommand) rfl acts, rfl, rfl, rfl⟩
  obtain ⟨halts, result, link, cut⟩ := halts
  rw [halts, result, cut, ← link]
  exact ⟨fun h => congrArg _ (haltSteps_off code h), fun h => ⟨fun phase => congrArg _ (haltSteps_waits code h phase),
    fun settle other => congrArg _ (haltSteps_sends code h settle other)⟩⟩

/-! ## MARK -/

section
variable {tag : Half} {s : State}

theorem markOwn_uncaptured (h : capturing s = false) : markOwn tag s = refuse codeMark .badState s := by
  simp [markOwn, h]

theorem markOwn_top (h : capturing s = true) (top : s.capture.epochCounter = epochTop) :
    markOwn tag s = refuse codeMark .range s := by
  simp [markOwn, h, top]

theorem markOwn_enters (h : capturing s = true) (top : s.capture.epochCounter ≠ epochTop) :
    markOwn tag s = if listFull s || !markGranted s then refuse codeMark .listFull s
      else complete codeMark s.capture.epochCounter 0 (withMark tag .command false false s) := by
  rw [markOwn, if_neg (by simp [h]), if_neg top, enterMark_eq]

end

/-- A MARK that enters, in the words of the statement. -/
theorem withAnswer_withMark (tag : Half) (s : State) (top : s.capture.epochCounter ≠ 4294967295) :
    ∃ t, withAnswer 6 .done none s.capture.epochCounter 0 (withMark tag .command false false s) = t ∧
      t = { withAnswer 6 .done none s.capture.epochCounter 0 s with
            capture := ⟨s.capture.seqCounter + 1, s.capture.epochCounter + 1, none, none⟩
            staging := { s.staging with
                         queue := s.staging.queue ++
                           [⟨⟨s.capture.seqCounter, .mark ⟨s.capture.epochCounter, tag, .command, false, false⟩⟩, 0⟩]
                         highArmed := armedAfterRise s t
                         lowWritten := false }
            markers := { s.markers with entries := s.markers.entries ++
              [⟨s.capture.epochCounter, tag, .command, false, false, s.capture.seqCounter, none, .recorded⟩] }
            events.flags := flagsWith (riseEvents s t ++ [.commandDone]) s } := by
  refine ⟨_, rfl, ?_⟩
  rw [flagsWith_append]
  simp only [withAnswer, withMark, if_neg top]
  rfl

/-! ## RECLAIM -/

/-- An answer is in the slot record, or in the side record beside a RUNNING command (R175). -/
def withAnswered (code : BitVec 4) (status : CmdStatus) (reason : Option Reason) (r0 r1 : Word) (s : State) : State :=
  if slotFreed s then withAnswer code status reason r0 r1 s
  else
    { s with
      journal.number := s.journal.number + 1
      journal.side := some (newRecord code status reason r0 r1 s)
      events.flags := flagsWith [.commandDone] s }

theorem answerCommand_next (code st re a b) (s : State) :
    answerCommand code st re a b (nextNumber s) = withAnswered code st re a b s := by
  unfold withAnswered
  cases h : slotFreed s with
  | true => rw [if_pos rfl, answerCommand_free code st re a b s h]
  | false =>
    have run : s.journal.slot.status = .running := by simpa [slotFreed] using h
    simp [answerCommand, running, nextNumber, run, raise, raiseIf, commandRecord, newRecord, flagsWith]

theorem reclaimBlocks_eq (n : Nat) (s : State) :
    let low := decide (capacity s - (s.space.used - n) ≤ s.words.lowSpace.toNat)
    reclaimBlocks n s =
      { s with
        space.tail := advance s.space.chain n s.space.tail
        space.used := s.space.used - n
        space.durableUsed := s.space.durableUsed - n
        space.lowArmed := !low
        events.flags := flagsWith (if low && s.space.lowArmed then [.storeLow] else []) s } := by
  intro low
  have raised (c : Bool) : flagsWith (if c then [.storeLow] else []) s =
      s.events.flags ||| (if c then eventBit .storeLow &&& s.events.enables else 0) := by
    cases c <;> simp [flagsWith]
  rw [raised]
  rfl

/-- Settles O59: MARK and RECLAIM by their conditions. -/
theorem markAndReclaim : Obligations.MarkAndReclaim := by
  intro s acts
  refine ⟨fun free tag => ?_, ?_⟩
  · intro refused room
    have own : exec (.mark tag) s = .next (markOwn tag (nextNumber s)) := by
      rw [exec_port rfl acts, markCommand, takeCommand_free _ _ _ _ free]
    have granted : (listFull s || !markGranted s) = false ↔ room := by
      simp only [Bool.or_eq_false_iff, decide_eq_false_iff_not, listFull, Bool.not_eq_false', markGranted, atOnce,
        Bool.and_eq_true, roomForRecord_iff, List.isEmpty_iff, Bool.not_eq_true', markSize, room, Nat.not_le]
      tauto
    refine ⟨fun still => ?_, fun captures top => ?_, fun captures top full => ?_, fun captures top hasRoom => ?_⟩
    · exact own.trans (congrArg _ ((markOwn_uncaptured (by exact still)).trans (refuse_free codeMark .badState free)))
    · exact own.trans (congrArg _ ((markOwn_top (by exact captures) (by exact top)).trans
        (refuse_free codeMark .range free)))
    · refine own.trans (congrArg _ ((markOwn_enters (by exact captures) (by exact top)).trans ((if_pos ?_).trans
        (refuse_free codeMark .listFull free))))
      exact (Bool.not_eq_false _).mp (mt granted.1 full)
    · obtain ⟨t, entered, spelled⟩ := withAnswer_withMark tag s top
      refine ⟨t, ?_, spelled⟩
      rw [← entered]
      refine own.trans (congrArg _ ((markOwn_enters (by exact captures) (by exact top)).trans ((if_neg ?_).trans ?_)))
      · exact (Bool.not_eq_true _).mpr (granted.2 hasRoom)
      · exact answerCommand_free codeMark .done none _ 0 (withMark tag .command false false s) free
  · intro n beside answer left low tail admitted
    have own : exec .reclaim s = .next (reclaimOwn (nextNumber s)) := by
      rw [exec_port rfl acts, reclaimCommand]
      rcases admitted with free | ⟨run, code⟩
      · rw [takeCommand_free _ _ _ _ free]
      · rw [takeCommand_admitted _ _ (by simp [runningCode, running, run, code, codeStop])]
    refine ⟨fun zero => ?_, fun some more => ?_, fun some fits => ?_⟩
    · exact own.trans (congrArg _ ((if_pos zero).trans (answerCommand_next codeReclaim .refused _ 0 0 s)))
    · exact own.trans (congrArg _ ((if_neg some).trans ((if_pos more).trans
        (answerCommand_next codeReclaim .refused _ 0 0 s))))
    · have answered := answerCommand_next codeReclaim .done none (positionWord tail) (BitVec.ofNat 32 left)
        (reclaimBlocks n s)
      refine own.trans (congrArg _ ((if_neg some).trans ((if_neg (Nat.not_lt.2 fits)).trans ?_)))
      refine congrArg linkChoose (Eq.trans answered ?_)
      rw [reclaimBlocks_eq]
      rfl

end Sys2Proof.Machine
end

section
/-! PROOFS. START: its refusals in order, and the generation it begins. -/

namespace Sys2Proof.Machine

/-! ## The refusals -/

section
variable {p : BitVec 2} {g : Half} {s : State}

theorem readPlacement_none (h : p = 2 ∨ p = 3) : readPlacement p = none := by
  rcases h with rfl | rfl <;> rfl

theorem startOwn_elsewhere (h : s.journal.state ≠ .stopped) : startOwn p g s = refuse codeStart .badState s := if_pos h

theorem startOwn_badArgument (h : s.journal.state = .stopped) (hp : readPlacement p = none) :
    startOwn p g s = refuse codeStart .badArgument s := by
  unfold startOwn
  rw [if_neg (by simp [h]), hp]

theorem startOwn_noChain {pl : Placement} (h : s.journal.state = .stopped) (hp : readPlacement p = some pl)
    (chain : chainFrom s.extents.toList = none) : startOwn p g s = refuse codeStart .extentInvalid s := by
  unfold startOwn
  rw [if_neg (by simp [h]), hp, chain]

theorem startOwn_chain {pl : Placement} {ch : List Extent} (h : s.journal.state = .stopped)
    (hp : readPlacement p = some pl) (chain : chainFrom s.extents.toList = some ch) :
    startOwn p g s =
      if chainGood ch = false ∨ (pl = .continue ∧ keptPositionsGood ch s.space = false) then
        refuse codeStart .extentInvalid s
      else startTaken pl g ch s := by
  unfold startOwn
  rw [if_neg (by simp [h]), hp, chain]
  cases good : chainGood ch <;> by_cases kept : pl = .continue ∧ keptPositionsGood ch s.space = false <;> simp [kept, good]

end

/-! ## The generation it begins -/

/-- The comparisons of START, with STORE_LOW armed (R106, R107). -/
theorem startCompares_eq (s : State) :
    let low := decide (freeBlocks s ≤ s.words.lowSpace.toNat)
    startCompares s =
      { s with
        space.lowArmed := !low
        events.flags := flagsWith ((if low && s.space.lowArmed then [.storeLow] else []) ++
          (if s.space.used = capacity s then [.storeFull] else [])) s } := by
  intro low
  have met (c : Bool) (e : Event) (m : Half) :
      List.foldl (fun m e => m ||| (eventBit e &&& s.events.enables)) m (if c then [e] else []) =
        m ||| (if c then eventBit e &&& s.events.enables else 0) := by
    cases c <;> simp
  have full : (if s.space.used = capacity s then [Event.storeFull] else []) = if storeFull s then [.storeFull] else [] := by
    simp [storeFull]
  rw [full]
  simp only [flagsWith, List.foldl_append, met]
  rfl

theorem startTaken_eq (pl : Placement) (g : Half) (ch : List Extent) (s : State) :
    let sp := startSpace pl ch s.space
    let low := decide (chainCapacity ch - sp.used ≤ s.words.lowSpace.toNat)
    ∃ t : State,
      startTaken pl g ch (nextNumber s) = begunInit t ∧
      t = { s with
            journal :=
              { s.journal with
                state := .starting, resume := none, generation := g, number := s.journal.number + 1,
                slot := newRecord 1 .running none 0 0 s }
            space := { sp with lowArmed := !low }
            capture := ⟨1, 1, none, none⟩
            staging := ⟨[⟨⟨0, .gen (genFields pl g s)⟩, 0⟩], armedAfterRise s t, .none, false⟩
            markers := { s.markers with durableEpoch := 0, durableTag := 0, commitEpoch := none }
            framer := ⟨g, s.words.blockSize, 0, 1, none, .none⟩
            link := { s.link with attempts := 0, pauseReq := false, readback := none, recovery := false }
            events.flags := flagsWith ((if low && sp.lowArmed then [.storeLow] else []) ++
                 (if sp.used = chainCapacity sp.chain then [.storeFull] else []) ++ riseEvents s t) s } := by
  intro sp low
  refine ⟨_, beginInit_eq _, ?_⟩
  simp only [startCompares_eq, enterRecord_eq, flagsWith_append]
  cases pl <;> rfl

/-- A number made of bits has them at their places. -/
theorem testBit_bitsToNat (bs : List Bool) (n : Nat) : (bitsToNat bs).testBit n = (bs[n]?).getD false := by
  induction bs generalizing n with
  | nil => simp [bitsToNat]
  | cons b bs ih =>
    unfold bitsToNat
    cases n with
    | zero => cases b <;> simp [Nat.testBit_zero, Nat.add_mod]
    | succ n =>
      have half : (b.toNat + 2 * bitsToNat bs) / 2 = bitsToNat bs := by
        have bit := b.toNat_lt
        omega
      rw [Nat.testBit_succ, half, ih]
      simp

/-- The set of a table's flags, one bit for each entry (R29). -/
theorem getLsbD_bitsToNat {α : Type} {k : Nat} (v : Vector α k) (f : α → Bool) (n : Fin k) :
    (BitVec.ofNat k (bitsToNat (v.toList.map f))).getLsbD n = f v[n] := by
  rw [BitVec.getLsbD_ofNat, testBit_bitsToNat]
  simp

/-- START arms STORE_LOW (R106). -/
theorem startSpace_lowArmed (pl : Placement) (ch : List Extent) (sp : Space) : (startSpace pl ch sp).lowArmed = true := by
  cases pl <;> rfl

/-- Settles O55: the refusals in their order, and each placement taken. -/
theorem startAnswered : Obligations.StartAnswered := by
  intro p g s acts free refused
  have own : exec (.start p g) s = .next (startOwn p g (nextNumber s)) := by
    rw [exec_port rfl acts, startCommand, takeCommand_free _ _ _ _ free]
  have refuses {r : Reason} (h : startOwn p g (nextNumber s) = refuse codeStart r (nextNumber s)) : refused r :=
    own.trans (congrArg _ (h.trans (refuse_free codeStart r free)))
  have placed (h : p = 0 ∨ p = 1) : ∃ pl, readPlacement p = some pl := by
    rcases h with rfl | rfl <;> exact ⟨_, rfl⟩
  refine ⟨fun state => refuses (startOwn_elsewhere (by exact state)), fun state => ⟨fun bad => ?_, fun code none => ?_,
    fun ch chain => ⟨fun code bad => ?_, fun code good bad => ?_, fun code good => ?_⟩⟩⟩
  · exact refuses (startOwn_badArgument (by exact state) (readPlacement_none bad))
  · obtain ⟨pl, hp⟩ := placed code
    exact refuses (startOwn_noChain (by exact state) hp (by exact none))
  · obtain ⟨pl, hp⟩ := placed code
    exact refuses ((startOwn_chain (by exact state) hp (by exact chain)).trans (if_pos (.inl bad)))
  · subst code
    exact refuses ((startOwn_chain (pl := .continue) (by exact state) rfl (by exact chain)).trans (if_pos (.inr ⟨rfl, bad⟩)))
  · obtain ⟨pl, hp, kept⟩ : ∃ pl, readPlacement p = some pl ∧
        ¬ (chainGood ch = false ∨ (pl = .continue ∧ keptPositionsGood ch s.space = false)) := by
      rcases code with rfl | ⟨rfl, kept⟩
      · exact ⟨.fromOrigin, rfl, by simp [good]⟩
      · exact ⟨.continue, rfl, by simp [good, kept]⟩
    obtain ⟨t, taken, spelled⟩ := startTaken_eq pl g ch s
    have space := congrArg State.space spelled
    have flags := congrArg (·.events.flags) spelled
    refine ⟨t, genFields pl g s, ?_, ?_, ?_, ?_⟩
    · rw [own, startOwn_chain (s := nextNumber s) state hp chain, if_neg (by exact kept), taken]
    · refine spelled.trans ?_
      rw [space, flags]
    · rw [space, flags]
      rcases code with rfl | ⟨rfl, -⟩ <;> cases hp
      · refine ⟨rfl, rfl, rfl, rfl, fun _ => ⟨rfl, rfl, rfl, rfl, rfl⟩, fun h => by simp at h, ?_⟩
        rw [startSpace_lowArmed, Bool.and_true]
        rfl
      · refine ⟨rfl, rfl, rfl, rfl, fun h => by simp at h, fun _ => ⟨rfl, rfl, rfl, rfl, rfl⟩, ?_⟩
        rw [startSpace_lowArmed, Bool.and_true]
        rfl
    · refine ⟨rfl, rfl, ?_, fun n => getLsbD_bitsToNat s.regions (·.enabled) n,
        fun n => ⟨getLsbD_bitsToNat s.triggers (·.enabled) n, getLsbD_bitsToNat s.triggers (·.fenced) n⟩⟩
      rcases code with rfl | ⟨rfl, -⟩ <;> cases hp <;> rfl

end Sys2Proof.Machine
end

section
/-! PROOFS. The rows that write event words, counters and unlocked words, and bad frames. -/

namespace Sys2Proof.Machine

/-! ## Counters and bad frames -/

theorem accessOf_counter : ∀ i : Fin 15, accessOf (BitVec.ofNat 16 (0x50 + i.val)) = .wc := by decide

theorem entryOf_counter : ∀ i : Fin 15, entryOf 15 (BitVec.ofNat 16 (0x50 + i.val)) 0x50 1 = i := by decide

theorem writeFrame_counter (i : Fin 15) (v : Word) (s : State) :
    writeFrame (BitVec.ofNat 16 (0x50 + i.val)) v s = clearCounter i s := by
  unfold writeFrame
  rw [accessOf_counter]
  dsimp only
  rw [entryOf_counter]

/-- What a frame shifts out, if its opcode is READ and it has a data bit (R201). -/
def shiftedOut (bits : List Bool) (s : State) : List (List Bool) :=
  if frameField bits 0 8 = 0x96 ∧ 24 < bits.length then
    [shiftOut (BitVec.ofNat 16 (frameField bits 8 16)) (bits.length - 24) s] else []

theorem noteShifted_eq (bits : List Bool) (s : State) :
    noteShifted bits s = { s with ports.mgmtOut := s.ports.mgmtOut ++ shiftedOut bits s } := by
  unfold noteShifted shiftedOut
  by_cases h : frameField bits 0 8 = 0x96 ∧ 24 < bits.length
  · rw [if_pos h, if_pos (by exact h)]
  · rw [if_neg h, if_neg (by exact h), List.append_nil]

/-- A frame that is not well formed is counted (R202). -/
theorem mgmtFrame_bad {bits : List Bool} (h : badFrameWellFormed bits = true) (s : State) :
    mgmtFrame bits s =
      { s with
        counters := countersWith [(.mgmtBadFrames, 1)] s
        ports.mgmtOut := s.ports.mgmtOut ++ shiftedOut bits s } := by
  have counted : mgmtFrame bits s = badFrame (noteShifted bits s) := by
    unfold badFrameWellFormed at h
    unfold mgmtFrame
    dsimp only
    cases kind : frameKind bits with
    | bad => rfl
    | read => rw [kind] at h; cases h
    | write a v =>
      rw [kind] at h
      have ro : accessOf a = .ro := by simpa using h
      simp only [writeFrame, ro]
  rw [counted, noteShifted_eq]
  rfl

/-! ## The interrupt line -/

/-- A value is not 0 exactly if it has a bit. -/
theorem ne_zero_iff_getLsbD {n : Nat} (x : BitVec n) : x ≠ 0 ↔ ∃ i : Nat, x.getLsbD i = true := by
  constructor
  · intro h
    by_contra none
    rw [not_exists] at none
    exact h (BitVec.eq_of_getLsbD_eq fun i _ => by simpa using none i)
  · rintro ⟨i, hi⟩ rfl
    simp at hi

/-- Settles O52: row by row, and the line by its asserting set. -/
theorem eventWordsWritten : Obligations.EventWordsWritten := by
  intro v s acts
  refine ⟨?_, ?_, ?_, ?_, ?_, ?_, ?_, ?_, fun k => ?_, fun bits bad => ⟨shiftedOut bits s, ?_, fun plain => ?_⟩, ?_⟩
  · rw [exec_port rfl acts, maskOf_eq]; rfl
  · rw [exec_port rfl acts, maskOf_eq]; rfl
  · rw [exec_port rfl acts, maskOf_eq]; rfl
  · rw [exec_port rfl acts, maskOf_eq]; rfl
  · rw [exec_port rfl acts, ← maskOf_eq]; rfl
  · rw [exec_port rfl acts, ← maskOf_eq]; rfl
  · exact exec_port (f := writeFrame 0x21 v) rfl acts
  · exact exec_port (f := writeFrame 0x1B v) rfl acts
  · rw [exec_port rfl acts, writeFrame_counter]; rfl
  · rw [exec_port rfl acts, mgmtFrame_bad bad]
  · unfold shiftedOut
    rw [if_neg]
    rcases plain with h | h
    · exact fun both => h both.1
    · exact fun both => by omega
  · unfold irqLow assertingSet
    rw [bne_iff_ne, ne_zero_iff_getLsbD]
    simp only [BitVec.getLsbD_and, Bool.and_eq_true, and_assoc]

end Sys2Proof.Machine
end

section
/-! PROOFS. The words of the register window as they are laid out: each word that is made of fields at its bits. -/

namespace Sys2Proof.Machine

/-! ## Words of fields

Each proof reads both sides as numbers: an append is a shift and an or, a field a shift. -/

theorem recordWord_shown (r : CmdRecord) :
    recordWord (some r) = 0#12 ++ reasonShown r.reason ++ 0#1 ++ statusShown r.status ++ r.code ++ r.number := by
  apply BitVec.eq_of_toNat_eq
  simp only [BitVec.toNat_append]
  simp [recordWord, reasonCode_shown, cmdStatusCode_shown, field_bits, Nat.shiftLeft_or_distrib, ← Nat.shiftLeft_add]
  simp only [Nat.or_comm, Nat.or_left_comm, Nat.or_assoc]

theorem statusWord_shown (j : Journal) :
    field (journalCode j.state) 0 ||| field (resumeCode j.resume) 4 ||| field j.number.toNat 8 |||
        field j.generation.toNat 16 =
      j.generation ++ j.number ++ 0#1 ++ resumeShown j.resume ++ 0#1 ++ journalShown j.state := by
  apply BitVec.eq_of_toNat_eq
  simp only [BitVec.toNat_append]
  simp [journalCode_shown, resumeCode_shown, field_bits, Nat.shiftLeft_or_distrib, ← Nat.shiftLeft_add]
  simp only [Nat.or_comm, Nat.or_left_comm, Nat.or_assoc]

theorem voidsWord_shown (n : Nat) (b : Bool) :
    field (n % 8) 0 ||| flagAt b 8 = 0#23 ++ BitVec.ofBool b ++ 0#5 ++ BitVec.ofNat 3 n := by
  have low : n % 8 = (BitVec.ofNat 3 n).toNat := rfl
  rw [low, flagAt_ofBool]
  generalize BitVec.ofNat 3 n = n, BitVec.ofBool b = b
  apply BitVec.eq_of_toNat_eq
  simp only [BitVec.toNat_append]
  simp [field_bits, ← Nat.shiftLeft_add]
  simp only [Nat.or_comm]

theorem word_half (x : Half) : word x.toNat = 0#16 ++ x := by
  apply BitVec.eq_of_toNat_eq
  simp only [BitVec.toNat_append]
  simp [word]
  omega

theorem word_byte (x : Byte) : word x.toNat = 0#24 ++ x := by
  apply BitVec.eq_of_toNat_eq
  simp only [BitVec.toNat_append]
  simp [word]
  omega

theorem word_retry (x : BitVec 3) : word x.toNat = 0#29 ++ x := by
  apply BitVec.eq_of_toNat_eq
  simp only [BitVec.toNat_append]
  simp [word]
  omega

theorem markerWord_shown (m : Marker) :
    markerWord 1 (some m) =
      0#3 ++ BitVec.ofBool m.serial.isSome ++ 0#2 ++ markerStateShown m.state ++ 0#2 ++ BitVec.ofBool m.final ++
        BitVec.ofBool m.fenced ++ 0#1 ++ sourceShown m.source ++ m.tag := by
  unfold markerWord
  simp only [markerCode_shown, sourceCode_shown, flagAt_ofBool]
  generalize BitVec.ofBool m.serial.isSome = a, BitVec.ofBool m.final = b, BitVec.ofBool m.fenced = c
  apply BitVec.eq_of_toNat_eq
  simp only [BitVec.toNat_append]
  simp [field_bits, Nat.shiftLeft_or_distrib, ← Nat.shiftLeft_add]
  simp only [Nat.or_comm, Nat.or_left_comm, Nat.or_assoc]

/-- A flag that is always set, as the field of its one bit. -/
theorem flagAt_true (p : Nat) : flagAt true p = field (1#1).toNat p := rfl

theorem identityWord_shown (i : Identity) : identityWord 1 (some i) = 1#1 ++ 0#23 ++ i.maxWidth ++ i.sizes := by
  unfold identityWord
  simp only [flagAt_true]
  generalize 1#1 = top
  apply BitVec.eq_of_toNat_eq
  simp only [BitVec.toNat_append]
  simp [field_bits, Nat.shiftLeft_or_distrib, ← Nat.shiftLeft_add]
  simp only [Nat.or_comm, Nat.or_assoc]

theorem errorWord_shown (d : ErrorDetail) :
    errorWord 0 (some d) = 1#1 ++ 0#7 ++ d.tag ++ 0#4 ++ codeShown d.cmd ++ 0#3 ++ kindShown d.kind := by
  unfold errorWord
  simp only [flagAt_true, errorCode_shown, commandCode_shown]
  generalize 1#1 = top
  apply BitVec.eq_of_toNat_eq
  simp only [BitVec.toNat_append]
  simp [field_bits, Nat.shiftLeft_or_distrib, ← Nat.shiftLeft_add]
  simp only [Nat.or_comm, Nat.or_left_comm, Nat.or_assoc]

theorem errorStateWord_shown (d : ErrorDetail) :
    errorWord 3 (some d) =
      0#6 ++ BitVec.ofBool d.addr.isSome ++ BitVec.ofBool d.serial.isSome ++ 0#5 ++ outcomeShown d.outcome ++ 0#1 ++
        journalShown d.journal ++ linkShown d.link ++ 0#4 ++ BitVec.ofNat 4 d.attempt := by
  have low : d.attempt % 16 = (BitVec.ofNat 4 d.attempt).toNat := rfl
  unfold errorWord
  simp only [flagAt_ofBool, outcomeCode_shown, journalCode_shown, linkCode_shown, low]
  generalize BitVec.ofBool d.addr.isSome = a, BitVec.ofBool d.serial.isSome = b, BitVec.ofNat 4 d.attempt = n
  apply BitVec.eq_of_toNat_eq
  simp only [BitVec.toNat_append]
  simp [field_bits, Nat.shiftLeft_or_distrib, ← Nat.shiftLeft_add]
  simp only [Nat.or_comm, Nat.or_left_comm, Nat.or_assoc]

theorem linkStateWord_shown (st : LinkState) (pause recovery run counted : Bool) (attempts : Nat) (tag : Byte) :
    field (linkCode st) 0 ||| flagAt pause 8 ||| flagAt recovery 9 ||| flagAt run 12 ||| flagAt counted 13 |||
        field (attempts % 16) 16 ||| field tag.toNat 24 =
      tag ++ 0#4 ++ BitVec.ofNat 4 attempts ++ 0#2 ++ BitVec.ofBool counted ++ BitVec.ofBool run ++ 0#2 ++
        BitVec.ofBool recovery ++ BitVec.ofBool pause ++ 0#4 ++ linkShown st := by
  have low : attempts % 16 = (BitVec.ofNat 4 attempts).toNat := rfl
  simp only [flagAt_ofBool, linkCode_shown, low]
  generalize BitVec.ofBool pause = a, BitVec.ofBool recovery = b, BitVec.ofBool run = c, BitVec.ofBool counted = d,
    BitVec.ofNat 4 attempts = n
  apply BitVec.eq_of_toNat_eq
  simp only [BitVec.toNat_append]
  simp [field_bits, Nat.shiftLeft_or_distrib, ← Nat.shiftLeft_add]
  simp only [Nat.or_comm, Nat.or_left_comm, Nat.or_assoc]

theorem lastStatusWord_shown (code : Byte) (c : LinkCmd) :
    field code.toNat 0 ||| field (commandCode c).toNat 8 ||| flagAt true 31 = 1#1 ++ 0#19 ++ codeShown c ++ code := by
  simp only [flagAt_true, commandCode_shown]
  generalize 1#1 = top
  apply BitVec.eq_of_toNat_eq
  simp only [BitVec.toNat_append]
  simp [field_bits, Nat.shiftLeft_or_distrib, ← Nat.shiftLeft_add]
  simp only [Nat.or_comm, Nat.or_left_comm]

/-- A position word as a field beside a flag. -/
theorem positionWord_fields (p : Pos) :
    positionWord p = field (BitVec.ofNat 24 p.offset).toNat 0 ||| field (BitVec.ofNat 5 p.entry).toNat 24 := by
  have small : p.offset % 16777216 < 2 ^ 24 := Nat.mod_lt _ (by norm_num)
  have few : p.entry % 32 < 32 := Nat.mod_lt _ (by norm_num)
  apply BitVec.eq_of_toNat_eq
  rw [BitVec.toNat_or, field_bits _ _ (by norm_num), field_bits _ _ (by norm_num), Nat.shiftLeft_zero, Nat.or_comm,
    ← Nat.shiftLeft_add_eq_or_of_lt (by simpa using small), Nat.shiftLeft_eq]
  simp only [positionWord, BitVec.toNat_ofNat]
  omega

theorem positionWord_shown (p : Pos) : positionWord p = positionShown p := by
  rw [positionWord_fields, positionShown]
  generalize BitVec.ofNat 24 p.offset = o, BitVec.ofNat 5 p.entry = e
  apply BitVec.eq_of_toNat_eq
  simp only [BitVec.toNat_append]
  simp [field_bits, Nat.or_comm]

theorem recordedHead_shown (p : Pos) :
    positionWord p ||| flagAt true 31 = 1#1 ++ 0#2 ++ BitVec.ofNat 5 p.entry ++ BitVec.ofNat 24 p.offset := by
  rw [positionWord_fields, flagAt_true]
  generalize BitVec.ofNat 24 p.offset = o, BitVec.ofNat 5 p.entry = e, 1#1 = top
  apply BitVec.eq_of_toNat_eq
  simp only [BitVec.toNat_append]
  simp [field_bits, Nat.shiftLeft_or_distrib, ← Nat.shiftLeft_add]
  simp only [Nat.or_comm, Nat.or_assoc]

theorem indications_shown (a b : Bool) : flagAt a 0 ||| flagAt b 1 = 0#30 ++ BitVec.ofBool b ++ BitVec.ofBool a := by
  cases a <;> cases b <;> rfl

theorem regionFlagsWord_shown (r : Region) :
    regionWord 1 r =
      0#8 ++ r.label ++ 0#5 ++ BitVec.ofBool r.coalesce ++ BitVec.ofBool (r.policy == .shed) ++ BitVec.ofBool r.enabled ++
        r.basePage.extractLsb' 20 8 := by
  unfold regionWord
  simp only [flagAt_ofBool]
  generalize BitVec.ofBool r.coalesce = a, BitVec.ofBool (r.policy == .shed) = b, BitVec.ofBool r.enabled = c,
    r.basePage.extractLsb' 20 8 = d
  apply BitVec.eq_of_toNat_eq
  simp only [BitVec.toNat_append]
  simp [field_bits, Nat.shiftLeft_or_distrib, ← Nat.shiftLeft_add]
  simp only [Nat.or_comm, Nat.or_assoc]

theorem regionLimitWord_shown (r : Region) :
    regionWord 3 r = r.stallLimit ++ 0#8 ++ r.limitPage.extractLsb' 20 8 := by
  unfold regionWord
  generalize r.limitPage.extractLsb' 20 8 = d
  apply BitVec.eq_of_toNat_eq
  simp only [BitVec.toNat_append]
  simp [field_bits, ← Nat.shiftLeft_add, Nat.or_comm]

theorem triggerFlagsWord_shown (t : Trigger) :
    triggerWord 1 t = 0#22 ++ BitVec.ofBool t.fenced ++ BitVec.ofBool t.enabled ++ t.addr.extractLsb' 32 8 := by
  unfold triggerWord
  simp only [flagAt_ofBool]
  generalize BitVec.ofBool t.fenced = a, BitVec.ofBool t.enabled = b, t.addr.extractLsb' 32 8 = d
  apply BitVec.eq_of_toNat_eq
  simp only [BitVec.toNat_append]
  simp [field_bits, Nat.shiftLeft_or_distrib, ← Nat.shiftLeft_add]
  simp only [Nat.or_comm, Nat.or_assoc]

theorem extentFlagsWord_shown (e : Extent) :
    extentWord 1 e = 0#5 ++ BitVec.ofBool e.notify ++ BitVec.ofBool e.last ++ BitVec.ofBool e.valid ++ e.count := by
  unfold extentWord
  simp only [flagAt_ofBool]
  generalize BitVec.ofBool e.notify = a, BitVec.ofBool e.last = b, BitVec.ofBool e.valid = d
  apply BitVec.eq_of_toNat_eq
  simp only [BitVec.toNat_append]
  simp [field_bits, Nat.shiftLeft_or_distrib, ← Nat.shiftLeft_add]
  simp only [Nat.or_comm, Nat.or_assoc]

end Sys2Proof.Machine
end

section
/-! PROOFS. The register window: where each word stands, what a READ frame shifts out, and the words written and read. -/

namespace Sys2Proof.Machine

/-! ## Where a word stands -/

theorem inWords_iff (a : Half) (first n : Nat) : inWords a first n = true ↔ first ≤ a.toNat ∧ a.toNat < first + n := by
  simp [inWords]

theorem toNat_wordAt {base k : Nat} (h : base + k < 65536) : (BitVec.ofNat 16 base + BitVec.ofNat 16 k).toNat = base + k := by
  simp only [BitVec.toNat_add, BitVec.toNat_ofNat]
  omega

section
variable {a : Half} (s : State)

/-- The counters, from 0x0050 on (R204). -/
theorem readWord_counter (i : Fin 15) (h : a.toNat = 0x50 + i.val) : readWord s a = s.counters[i] := by
  have entry : entryOf 15 a 0x50 1 = i := by
    apply Fin.ext
    simp only [entryOf, Fin.ofNat, h]
    omega
  simp only [readWord, inWords_iff]
  repeat rw [if_neg (by omega)]
  rw [if_pos (by omega)]
  simp only [entry]

/-- The words of the Marker List, four for each entry (R205). -/
theorem readWord_marker (k : Fin 16) (j : Fin 4) (h : a.toNat = 0x80 + 4 * k.val + j.val) :
    readWord s a = markerWord j.val s.markers.entries[k.val]? := by
  have low : a.toNat % 4 = j.val := by omega
  have entry : (a.toNat - 0x80) / 4 = k.val := by omega
  simp only [readWord, inWords_iff]
  repeat rw [if_neg (by omega)]
  rw [if_pos (by omega), low, entry]

theorem readWord_region (n : Fin 16) (j : Fin 4) (h : a.toNat = 0x100 + 4 * n.val + j.val) :
    readWord s a = regionWord j.val s.regions[n] := by
  have low : a.toNat % 4 = j.val := by omega
  have entry : entryOf 16 a 0x100 4 = n := by
    apply Fin.ext
    simp only [entryOf, Fin.ofNat, h]
    omega
  simp only [readWord, inWords_iff]
  repeat rw [if_neg (by omega)]
  rw [if_pos (by omega)]
  simp only [low, entry]

theorem readWord_trigger (n : Fin 4) (j : Fin 4) (h : a.toNat = 0x140 + 4 * n.val + j.val) :
    readWord s a = triggerWord j.val s.triggers[n] := by
  have low : a.toNat % 4 = j.val := by omega
  have entry : entryOf 4 a 0x140 4 = n := by
    apply Fin.ext
    simp only [entryOf, Fin.ofNat, h]
    omega
  simp only [readWord, inWords_iff]
  repeat rw [if_neg (by omega)]
  rw [if_pos (by omega)]
  simp only [low, entry]

theorem readWord_extent (n : Fin 32) (j : Fin 2) (h : a.toNat = 0x180 + 2 * n.val + j.val) :
    readWord s a = extentWord j.val s.extents[n] := by
  have low : a.toNat % 2 = j.val := by omega
  have entry : entryOf 32 a 0x180 2 = n := by
    apply Fin.ext
    simp only [entryOf, Fin.ofNat, h]
    omega
  simp only [readWord, inWords_iff]
  repeat rw [if_neg (by omega)]
  rw [if_pos (by omega)]
  simp only [low, entry]

theorem readWord_buffer (k : Fin 1024) (h : a.toNat = 0x400 + k.val) : readWord s a = bufferWord k.val s.buffer := by
  have place : a.toNat - 0x400 = k.val := by omega
  simp only [readWord, inWords_iff]
  repeat rw [if_neg (by omega)]
  rw [if_pos (by omega), place]

/-- The status words of R76 and R97 show that status alone; their layout is open. -/
theorem readWord_status (h : 0x60 ≤ a.toNat) (h' : a.toNat < 0x80) (pair : a ≠ 0x70 ∧ a ≠ 0x71) :
    readWord s a = Config.statusLayout (statusView s) a := by
  have epoch : a.toNat ≠ 0x70 := fun e => pair.1 (BitVec.eq_of_toNat_eq e)
  have tag : a.toNat ≠ 0x71 := fun e => pair.2 (BitVec.eq_of_toNat_eq e)
  simp only [readWord, inWords_iff]
  repeat rw [if_neg (by omega)]
  rw [if_pos (by omega)]

end

/-! ## Addresses that name no word -/

theorem journalWord_none {n : Nat} (h : 0x29 ≤ n) (h' : n < 0x30) (s : State) : journalWord n s = 0 := by
  interval_cases n <;> rfl

theorem spaceWord_none {n : Nat} (h : 0xCD ≤ n) (h' : n < 0xE0) (s : State) : spaceWord n s = 0 := by
  interval_cases n <;> rfl

theorem linkWord_none {n : Nat} (h : n = 0xEF ∨ (0xF4 ≤ n ∧ n < 0x100)) (s : State) : linkWord n s = 0 := by
  rcases h with rfl | ⟨h, h'⟩
  · rfl
  · interval_cases n <;> rfl

section
variable {a : Half} (s : State)

/-- The ranges between the parts of the window (R201, R204). -/
theorem readWord_outside (h : (0x4 ≤ a.toNat ∧ a.toNat < 0x10) ∨ (0x1C ≤ a.toNat ∧ a.toNat < 0x20) ∨
    (0x38 ≤ a.toNat ∧ a.toNat < 0x40) ∨ (0x45 ≤ a.toNat ∧ a.toNat < 0x50) ∨ a.toNat = 0x5F ∨
    (0x150 ≤ a.toNat ∧ a.toNat < 0x180) ∨ (0x1C0 ≤ a.toNat ∧ a.toNat < 0x400) ∨ 0x800 ≤ a.toNat) :
    readWord s a = 0 := by
  simp only [readWord, inWords_iff]
  repeat rw [if_neg (by omega)]

theorem readWord_journal_none (h : 0x29 ≤ a.toNat) (h' : a.toNat < 0x30) : readWord s a = 0 := by
  simp only [readWord, inWords_iff]
  repeat rw [if_neg (by omega)]
  rw [if_pos (by omega), journalWord_none h h']

theorem readWord_space_none (h : 0xCD ≤ a.toNat) (h' : a.toNat < 0xE0) : readWord s a = 0 := by
  simp only [readWord, inWords_iff]
  repeat rw [if_neg (by omega)]
  rw [if_pos (by omega), spaceWord_none h h']

theorem readWord_link_none (h : a.toNat = 0xEF ∨ (0xF4 ≤ a.toNat ∧ a.toNat < 0x100)) : readWord s a = 0 := by
  simp only [readWord, inWords_iff]
  repeat rw [if_neg (by omega)]
  rw [if_pos (by omega), linkWord_none h]

end

end Sys2Proof.Machine
end

section
/-! PROOFS. What the words of the window read, and what READ frames shift out. -/

namespace Sys2Proof.Machine

/-! ## The parts of the window -/

/-- The words of the window from an address on, as the statements list them. -/
def wordsAt (s : State) (a : Half) (n : Nat) : List Word := (List.range n).map fun k => readWord s (a + BitVec.ofNat 16 k)

section
variable (s : State)

theorem wordsAt_config : wordsAt s 0x10 12 = configShown s.words := by
  have read : wordsAt s 0x10 12 =
      [word (blockBytes s.words.blockSize), word (widthLines s.words.busWidth), word s.words.initDivisor.toNat,
        word s.words.runDivisor.toNat, word s.words.retryLimit.toNat, word s.words.busyLimit,
        word s.words.runIdleLimit.toNat, word s.words.sealTimer.toNat, word s.words.fenceLimit,
        word s.words.highWatermark, word s.words.lowWatermark, s.words.lowSpace] := rfl
  rw [read, configShown, word_byte, word_byte, word_retry, word_half, word_half, blockBytes_shown]
  cases s.words.busWidth <;> rfl

theorem wordsAt_records :
    wordsAt s 0x22 6 = recordShown (some s.journal.slot) ++ recordShown s.journal.side := by
  have read : wordsAt s 0x22 6 =
      [recordWord (some s.journal.slot), s.journal.slot.r0, s.journal.slot.r1, recordWord s.journal.side,
        (s.journal.side.map (·.r0)).getD 0, (s.journal.side.map (·.r1)).getD 0] := rfl
  rw [read, recordShown, recordWord_shown]
  cases s.journal.side with
  | none => rfl
  | some r => rw [recordShown, recordWord_shown]; rfl

theorem wordsAt_overtaken : wordsAt s 0x28 1 = (recordShown s.journal.overtaken).take 1 := by
  have read : wordsAt s 0x28 1 = [recordWord s.journal.overtaken] := rfl
  rw [read]
  cases s.journal.overtaken with
  | none => rfl
  | some r => rw [recordShown, recordWord_shown]; rfl

/-- The hold reason and the awaited epoch (R205). -/
theorem holdWords_shown :
    [field (holdCode s.held) 0 ||| flagAt (awaitedEpoch s).isSome 8, (awaitedEpoch s).getD 0] = holdShown s.held := by
  have plain (n : Nat) : field n 0 ||| flagAt false 8 = word n := by simp [field, flagAt, word]
  have fenced : field 4 0 ||| flagAt true 8 = 0x104 := by decide
  unfold awaitedEpoch
  rcases s.held with _ | ⟨w, hold, tm⟩
  · rfl
  · cases hold with
    | admitData => exact congrArg (· :: [0]) (plain 1)
    | admitMark => exact congrArg (· :: [0]) (plain 1)
    | tracking => exact congrArg (· :: [0]) (plain 2)
    | marker => exact congrArg (· :: [0]) (plain 3)
    | fence e => exact congrArg (· :: [e]) fenced

theorem wordsAt_status :
    wordsAt s 0x30 8 =
      [s.journal.generation ++ s.journal.number ++ 0#1 ++ resumeShown s.journal.resume ++ 0#1 ++
          journalShown s.journal.state] ++ holdShown s.held ++
        [s.capture.epochCounter, s.capture.seqCounter, BitVec.ofNat 32 (occupiedBytes s),
         BitVec.ofNat 32 s.staging.queue.length,
         0#23 ++ BitVec.ofBool s.capture.openGap.isSome ++ 0#5 ++ BitVec.ofNat 3 s.rtq.voids.length] := by
  rw [← holdWords_shown, ← statusWord_shown, ← voidsWord_shown]
  rfl

theorem wordsAt_events :
    wordsAt s 0x40 5 =
      [0#16 ++ s.events.flags, 0#16 ++ s.events.enables, 0#16 ++ s.events.lineEnables, 0,
       0#16 ++ (s.events.flags &&& s.events.enables &&& s.events.lineEnables)] := by
  simp only [← word_half]
  rfl

theorem wordsAt_counters : wordsAt s 0x50 15 = s.counters.toList := by
  refine List.ext_getElem (by simp [wordsAt]) fun i h h' => ?_
  have small : i < 15 := by simpa using h'
  have read := readWord_counter (a := BitVec.ofNat 16 0x50 + BitVec.ofNat 16 i) s ⟨i, small⟩ (toNat_wordAt (by omega))
  simp only [wordsAt, List.getElem_map, List.getElem_range]
  exact read

theorem wordsAt_durable : wordsAt s 0x70 2 = [s.markers.durableEpoch, 0#16 ++ s.markers.durableTag] := by
  rw [← word_half]
  rfl

theorem wordsAt_marker (k : Fin 16) :
    wordsAt s (BitVec.ofNat 16 (0x80 + 4 * k.val)) 4 = markerShown s.markers.entries[k.val]? := by
  have read (j : Fin 4) : readWord s (BitVec.ofNat 16 (0x80 + 4 * k.val) + BitVec.ofNat 16 j.val) =
      markerWord j.val s.markers.entries[k.val]? := readWord_marker s k j (toNat_wordAt (by omega))
  have words : wordsAt s (BitVec.ofNat 16 (0x80 + 4 * k.val)) 4 =
      [markerWord 0 s.markers.entries[k.val]?, markerWord 1 s.markers.entries[k.val]?,
        markerWord 2 s.markers.entries[k.val]?, markerWord 3 s.markers.entries[k.val]?] := by
    exact congr (congrArg List.cons (read 0)) (congr (congrArg List.cons (read 1))
      (congr (congrArg List.cons (read 2)) (congrArg (· :: []) (read 3))))
  rw [words]
  cases s.markers.entries[k.val]? with
  | none => rfl
  | some m => rw [markerWord_shown]; rfl

theorem wordsAt_space : wordsAt s 0xC0 13 = spaceShown s := by
  have read : wordsAt s 0xC0 13 =
      [positionWord s.space.head, storeAddress s.space.chain s.space.head, positionWord s.space.boundary,
        storeAddress s.space.chain s.space.boundary, positionWord s.space.tail,
        storeAddress s.space.chain s.space.tail, word s.space.used, word s.space.durableUsed, word (freeBlocks s),
        word (capacity s), positionWord s.space.origin,
        (s.space.recordedHead.map positionWord).getD 0 ||| flagAt s.space.recordedHead.isSome 31,
        flagAt (commitOwedSpace s) 0 ||| flagAt s.space.lowArmed 1] := rfl
  rw [read, indications_shown, positionWord_shown, positionWord_shown, positionWord_shown, positionWord_shown]
  cases h : s.space.recordedHead with
  | none => simp only [spaceShown, h]; rfl
  | some p => simp only [spaceShown, h, Option.map_some, Option.getD_some, Option.isSome_some, recordedHead_shown]; rfl

/-- The words of a store identity (R205). -/
theorem identityWords_shown (i : Option Identity) :
    [identityWord 0 i, identityWord 1 i, identityWord 2 i, identityWord 3 i] = identityShown i := by
  cases i with
  | none => rfl
  | some i => rw [identityWord_shown]; rfl

theorem wordsAt_link : wordsAt s 0xE0 15 = linkWordsShown s.link := by
  have read : wordsAt s 0xE0 15 =
      [field (linkCode s.link.state) 0 ||| flagAt s.link.pauseReq 8 ||| flagAt s.link.recovery 9 |||
          flagAt s.link.run.isSome 12 ||| flagAt ((s.link.run.map fun r => decide (r.count ≤ 255)).getD false) 13 |||
          field (s.link.attempts % 16) 16 ||| field s.link.tagCounter.toNat 24,
        (s.link.run.map (·.start)).getD 0, word ((s.link.run.map (·.count)).getD 0),
        word ((s.link.run.map (·.remaining)).getD 0), word ((s.link.idle.map (·.elapsed)).getD 0),
        (s.link.lastStatus.map (·.status)).getD 0,
        (s.link.lastStatus.map fun t =>
          field t.code.toNat 0 ||| field (commandCode t.cmd).toNat 8 ||| flagAt true 31).getD 0] ++
      [identityWord 0 s.link.storeId, identityWord 1 s.link.storeId, identityWord 2 s.link.storeId,
        identityWord 3 s.link.storeId] ++
      [identityWord 0 s.link.genStoreId, identityWord 1 s.link.genStoreId, identityWord 2 s.link.genStoreId,
        identityWord 3 s.link.genStoreId] := rfl
  have counted : (s.link.run.map fun r => decide (r.count ≤ 255)) = s.link.run.map fun r => decide (r.count < 256) := by
    simp only [Nat.lt_succ_iff]
  rw [read, identityWords_shown, identityWords_shown, linkStateWord_shown, counted, linkWordsShown]
  simp only [lastStatusWord_shown]
  cases s.link.run <;> cases s.link.idle <;> cases s.link.lastStatus <;> rfl

theorem wordsAt_error : wordsAt s 0xF0 4 = errorShown s.link.lastError := by
  have read : wordsAt s 0xF0 4 =
      [errorWord 0 s.link.lastError, errorWord 1 s.link.lastError, errorWord 2 s.link.lastError,
        errorWord 3 s.link.lastError] := rfl
  rw [read]
  cases s.link.lastError with
  | none => rfl
  | some d => rw [errorWord_shown, errorStateWord_shown]; rfl

theorem wordsAt_buffer (k : Fin 1024) : wordsAt s (BitVec.ofNat 16 (0x400 + k.val)) 1 = [bufferWord k.val s.buffer] := by
  have read := readWord_buffer (a := BitVec.ofNat 16 (0x400 + k.val) + BitVec.ofNat 16 0) s k (toNat_wordAt (by omega))
  rw [← read]
  rfl

end

/-! ## READ frames -/

theorem bitsOf_length {n : Nat} (x : BitVec n) : (bitsOf x).length = n := by simp [bitsOf]

/-- A value is read back from its bits (R201). -/
theorem msbToNat_bitsOf {n : Nat} (x : BitVec n) : msbToNat (bitsOf x) = x.toNat := by
  apply Nat.eq_of_testBit_eq
  intro i
  rw [msbToNat, testBit_bitsToNat, BitVec.testBit_toNat]
  by_cases h : i < n
  · rw [List.getElem?_eq_getElem (by simpa [bitsOf] using h), Option.getD_some, List.getElem_reverse]
    simp only [bitsOf, List.getElem_map, List.getElem_range, List.length_map, List.length_range]
    rw [BitVec.getMsbD_eq_getLsbD]
    have inside : n - 1 - i < n := by omega
    have mirrored : n - 1 - (n - 1 - i) = i := by omega
    simp [inside, mirrored]
  · rw [List.getElem?_eq_none (by simpa [bitsOf] using h), BitVec.getLsbD_of_ge _ _ (by omega)]
    rfl

theorem readWords_eq (s : State) (n : Nat) (a : Half) :
    readWords s n a = (List.range n).map fun j => readWord s (a + BitVec.ofNat 16 j) := by
  induction n generalizing a with
  | zero => rfl
  | succ n ih =>
    rw [readWords, ih, List.range_succ_eq_map, List.map_cons, List.map_map]
    congr 1
    · simp
    · refine List.map_congr_left fun j _ => ?_
      simp only [Function.comp_apply]
      congr 1
      rw [BitVec.add_assoc]
      congr 1
      rw [Nat.succ_eq_add_one, Nat.add_comm, BitVec.ofNat_add]
      rfl

/-- A READ frame that ends with a whole word shifts its words out whole. -/
theorem shiftOut_words (a : Half) (k : Nat) (s : State) :
    shiftOut a (32 * k) s = (List.range k).flatMap fun j => bitsOf (readWord s (a + BitVec.ofNat 16 j)) := by
  have words : (32 * k + 31) / 32 = k := by omega
  have length : ((List.range k).flatMap fun j => bitsOf (readWord s (a + BitVec.ofNat 16 j))).length = 32 * k := by
    simp [List.length_flatMap, bitsOf_length, Nat.mul_comm]
  rw [shiftOut, words, readWords_eq, List.flatMap_map, List.take_of_length_le (by rw [length])]

end Sys2Proof.Machine
end

section
/-! PROOFS. The words written in every journal state, the READ frames, and the words of the window. -/

namespace Sys2Proof.Machine

/-! ## READ frames by their bits -/

section
variable (op : Byte) (a : Half) (sent : List Bool)

theorem frameField_opcode : frameField (bitsOf op ++ bitsOf a ++ sent) 0 8 = op.toNat := by
  have first : ((bitsOf op ++ bitsOf a ++ sent).drop 0).take 8 = bitsOf op := by
    rw [List.drop_zero, List.append_assoc, List.take_left' (bitsOf_length op)]
  rw [frameField, first, msbToNat_bitsOf]

theorem frameField_address : frameField (bitsOf op ++ bitsOf a ++ sent) 8 16 = a.toNat := by
  have second : ((bitsOf op ++ bitsOf a ++ sent).drop 8).take 16 = bitsOf a := by
    rw [List.append_assoc, List.drop_left' (bitsOf_length op), List.take_left' (bitsOf_length a)]
  rw [frameField, second, msbToNat_bitsOf]

theorem frame_length : (bitsOf op ++ bitsOf a ++ sent).length = 24 + sent.length := by
  simp only [List.length_append, bitsOf_length]

end

/-- A READ frame of whole words changes nothing and shifts its words out (R201, R202). -/
theorem mgmtFrame_read {sent : List Bool} {k : Nat} (a : Half) (some : 1 ≤ k) (whole : sent.length = 32 * k) (s : State) :
    mgmtFrame (bitsOf 0x96#8 ++ bitsOf a ++ sent) s =
      { s with ports.mgmtOut := s.ports.mgmtOut ++ [(List.range k).flatMap fun j =>
          bitsOf (readWord s (a + BitVec.ofNat 16 j))] } := by
  have opcode : frameField (bitsOf 0x96#8 ++ bitsOf a ++ sent) 0 8 = 0x96 := frameField_opcode _ a sent
  have address := frameField_address 0x96#8 a sent
  have length : (bitsOf 0x96#8 ++ bitsOf a ++ sent).length = 24 + 32 * k := by rw [frame_length, whole]
  generalize bitsOf 0x96#8 ++ bitsOf a ++ sent = bits at opcode address length
  have kind : frameKind bits = .read := by
    have long : 8 ≤ 24 + 32 * k ∧ 56 ≤ 24 + 32 * k := by omega
    simp [frameKind, opcode, length, opcodeWrite, opcodeRead, long]
  have shifted : shiftedOut bits s =
      [(List.range k).flatMap fun j => bitsOf (readWord s (a + BitVec.ofNat 16 j))] := by
    have data : 24 + 32 * k - 24 = 32 * k := by omega
    rw [shiftedOut, if_pos ⟨opcode, by omega⟩, address, length, data, BitVec.ofNat_toNat, BitVec.setWidth_eq,
      shiftOut_words]
  rw [← shifted, ← noteShifted_eq]
  simp only [mgmtFrame, kind]

/-! ## Rows of a closed port -/

/-- The rows of the port are management rows (R202). -/
theorem portOp_of_managementRow {c : Instr} (h : managementRow c = true) : ∃ f, portOp c = some f := by
  cases c with
  | _ => first | exact ⟨_, rfl⟩ | contradiction

theorem exec_portClosed {c : Instr} {s : State} (closed : portOpen s = false) (h : managementRow c = true) :
    exec c s = .next s := by
  obtain ⟨f, hf⟩ := portOp_of_managementRow h
  rw [exec_portOp hf, if_neg (by simp [closed])]

/-! ## Words that are not named -/

/-- A word of one of the ranges without words. -/
theorem readWord_none {a : Half} {n : Nat} (s : State)
    (range : (a.toNat, n) ∈ [(0x4, 12), (0x1C, 4), (0x29, 7), (0x38, 8), (0x45, 11), (0x5F, 1), (0xCD, 19), (0xEF, 1),
      (0xF4, 12), (0x150, 48), (0x1C0, 576), (0x800, 63488)]) {k : Nat} (h : k < n) :
    readWord s (a + BitVec.ofNat 16 k) = 0 := by
  simp only [List.mem_cons, List.not_mem_nil, or_false, Prod.mk.injEq] at range
  have place : (a + BitVec.ofNat 16 k).toNat = a.toNat + k := by
    simp only [BitVec.toNat_add, BitVec.toNat_ofNat]
    omega
  by_cases journal : 0x29 ≤ a.toNat + k ∧ a.toNat + k < 0x30
  · exact readWord_journal_none s (by omega) (by omega)
  by_cases space : 0xCD ≤ a.toNat + k ∧ a.toNat + k < 0xE0
  · exact readWord_space_none s (by omega) (by omega)
  by_cases link : a.toNat + k = 0xEF ∨ (0xF4 ≤ a.toNat + k ∧ a.toNat + k < 0x100)
  · exact readWord_link_none s (by omega)
  · exact readWord_outside s (by omega)

/-! ## O53 -/

theorem clamp_zero (hi : Nat) (v : Word) : clamp 0 hi v = min v.toNat hi := Nat.zero_max _

/-- Settles O53: the writes row by row, the READ frames by their bits, and the words part by part. -/
theorem openWordsWritten : Obligations.OpenWordsWritten := by
  intro v s
  refine ⟨fun acts => ⟨?_, ?_, ?_, ?_, ?_, ?_, ?_, ?_, ?_, ?_, fun k => ?_, fun bits bad => ?_, fun a k sent one whole => ?_⟩,
    fun t a low high epoch tag same => ?_,
    ⟨rfl, wordsAt_config s, rfl, wordsAt_records s, wordsAt_overtaken s, wordsAt_status s, wordsAt_events s,
      wordsAt_counters s, wordsAt_durable s, wordsAt_marker s, wordsAt_space s, wordsAt_link s, wordsAt_error s,
      wordsAt_buffer s, fun a n range k h => readWord_none s range h⟩,
    fun closed c row => exec_portClosed closed row⟩
  · exact exec_port (f := writeFrame 0x15 v) rfl acts
  · rw [← clamp_zero]; exact exec_port (f := writeFrame 0x16 v) rfl acts
  · rw [← clamp_zero]; exact exec_port (f := writeFrame 0x17 v) rfl acts
  · exact exec_port (f := writeFrame 0x18 v) rfl acts
  · rw [← clamp_zero]; exact exec_port (f := writeFrame 0x19 v) rfl acts
  · rw [← clamp_zero]; exact exec_port (f := writeFrame 0x1A v) rfl acts
  · exact exec_port (f := writeFrame 0x1B v) rfl acts
  · exact exec_port (f := writeFrame 0x21 v) rfl acts
  · rw [← maskOf_eq]; exact exec_port (f := writeFrame 0x41 v) rfl acts
  · rw [← maskOf_eq]; exact exec_port (f := writeFrame 0x42 v) rfl acts
  · rw [exec_port rfl acts, writeFrame_counter]; rfl
  · exact (exec_port (f := mgmtFrame bits) rfl acts).trans (congrArg Host.Outcome.next (mgmtFrame_bad bad s))
  · exact (exec_port (f := mgmtFrame _) rfl acts).trans (congrArg Host.Outcome.next (mgmtFrame_read a one whole s))
  · rw [readWord_status t low high ⟨epoch, tag⟩, readWord_status s low high ⟨epoch, tag⟩, same]

end Sys2Proof.Machine
end

section
/-! PROOFS. Locked configuration: where a written word goes, which of its bits its entry keeps, and what the entry then reads. -/

namespace Sys2Proof.Machine

theorem toNat_address {n : Nat} (h : n < 65536) : (BitVec.ofNat 16 n).toNat = n := by
  rw [BitVec.toNat_ofNat, Nat.mod_eq_of_lt (by omega)]

/-! ## Access -/

theorem accessOf_locked {a : Half} (h : lockedWord a = true) : accessOf a = .lk := by
  have other : a.toNat ≠ 0x20 := by
    intro e
    simp [lockedWord, inWords, e] at h
  rw [accessOf, if_neg other, if_pos h]

theorem exec_lockedWrite {a : Half} {s : State} (acts : portOpen s = true) (h : lockedWord a = true) (v : Word) :
    exec (.lockedConfigWrite a v) s = .next (lockedWrite a v s) := by
  rw [exec_port (f := writeFrame a v) rfl acts, writeFrame, accessOf_locked h]

/-- In STOPPED a locked word is written (R188). -/
theorem exec_setLocked {a : Half} {s : State} (acts : portOpen s = true) (stopped : s.journal.state = .stopped)
    (h : lockedWord a = true) (v : Word) : exec (.lockedConfigWrite a v) s = .next (setLocked a v s) := by
  rw [exec_lockedWrite acts h, lockedWrite, if_pos stopped]

/-- The locked words of the tables (R205). -/
theorem lockedWord_of_table {a : Half} (h : (0x100 ≤ a.toNat ∧ a.toNat < 0x140) ∨
    (0x140 ≤ a.toNat ∧ a.toNat < 0x150 ∧ a.toNat % 4 < 2) ∨ (0x180 ≤ a.toNat ∧ a.toNat < 0x1C0)) :
    lockedWord a = true := by
  simp only [lockedWord, Bool.or_eq_true, Bool.and_eq_true, inWords_iff, decide_eq_true_eq]
  omega

/-! ## The entry that a write meets -/

section
variable {a : Half} (v : Word) (s : State)

theorem setLocked_region (n : Fin 16) (k : Fin 4) (h : a.toNat = 0x100 + 4 * n.val + k.val) :
    setLocked a v s = { s with regions := s.regions.set n (writeRegion k.val v s.regions[n]) } := by
  have low : a.toNat % 4 = k.val := by omega
  have entry : entryOf 16 a 0x100 4 = n := by
    apply Fin.ext
    simp only [entryOf, Fin.ofNat, h]
    omega
  simp only [setLocked, inWords_iff]
  rw [if_pos (by omega), low]
  simp only [entry]

theorem setLocked_trigger (n : Fin 4) (k : Fin 2) (h : a.toNat = 0x140 + 4 * n.val + k.val) :
    setLocked a v s = { s with triggers := s.triggers.set n (writeTrigger k.val v s.triggers[n]) } := by
  have low : a.toNat % 4 = k.val := by omega
  have entry : entryOf 4 a 0x140 4 = n := by
    apply Fin.ext
    simp only [entryOf, Fin.ofNat, h]
    omega
  simp only [setLocked, inWords_iff]
  rw [if_neg (by omega), if_pos (by omega), low]
  simp only [entry]

theorem setLocked_extent (n : Fin 32) (k : Fin 2) (h : a.toNat = 0x180 + 2 * n.val + k.val) :
    setLocked a v s = { s with extents := s.extents.set n (writeExtent k.val v s.extents[n]) } := by
  have low : a.toNat % 2 = k.val := by omega
  have entry : entryOf 32 a 0x180 2 = n := by
    apply Fin.ext
    simp only [entryOf, Fin.ofNat, h]
    omega
  simp only [setLocked, inWords_iff]
  rw [if_neg (by omega), if_neg (by omega), if_pos (by omega), low]
  simp only [entry]

end

/-! ## The bits that an entry keeps -/

section
variable (v : Word)

theorem keptPage : v.extractLsb' 12 20 ++ 0#12 = v &&& 0xFFFFF000#32 := by
  apply BitVec.eq_of_getLsbD_eq
  intro i hi
  simp only [BitVec.getLsbD_append, BitVec.getLsbD_extractLsb', BitVec.getLsbD_and]
  interval_cases i <;> simp

theorem keptFlags (shed : Bool) (h : shed = v.getLsbD 9) :
    0#8 ++ v.extractLsb' 16 8 ++ 0#5 ++ BitVec.ofBool (v.getLsbD 10) ++ BitVec.ofBool shed ++ BitVec.ofBool (v.getLsbD 8) ++
      v.extractLsb' 0 8 = v &&& 0x00FF07FF#32 := by
  subst h
  apply BitVec.eq_of_getLsbD_eq
  intro i hi
  simp only [BitVec.getLsbD_append, BitVec.getLsbD_extractLsb', BitVec.getLsbD_and]
  interval_cases i <;> simp

theorem keptLimit : v.extractLsb' 16 16 ++ 0#8 ++ v.extractLsb' 0 8 = v &&& 0xFFFF00FF#32 := by
  apply BitVec.eq_of_getLsbD_eq
  intro i hi
  simp only [BitVec.getLsbD_append, BitVec.getLsbD_extractLsb', BitVec.getLsbD_and]
  interval_cases i <;> simp

theorem keptAddress (x : BitVec 8) : (x ++ v.extractLsb' 3 29 ++ 0#3).extractLsb' 0 32 = v &&& 0xFFFFFFF8#32 := by
  apply BitVec.eq_of_getLsbD_eq
  intro i hi
  simp only [BitVec.getLsbD_append, BitVec.getLsbD_extractLsb', BitVec.getLsbD_and]
  interval_cases i <;> simp

theorem keptTrigger :
    0#22 ++ BitVec.ofBool (v.getLsbD 9) ++ BitVec.ofBool (v.getLsbD 8) ++ v.extractLsb' 0 8 = v &&& 0x000003FF#32 := by
  apply BitVec.eq_of_getLsbD_eq
  intro i hi
  simp only [BitVec.getLsbD_append, BitVec.getLsbD_extractLsb', BitVec.getLsbD_and]
  interval_cases i <;> simp

theorem keptExtent :
    0#5 ++ BitVec.ofBool (v.getLsbD 26) ++ BitVec.ofBool (v.getLsbD 25) ++ BitVec.ofBool (v.getLsbD 24) ++
      v.extractLsb' 0 24 = v &&& 0x07FFFFFF#32 := by
  apply BitVec.eq_of_getLsbD_eq
  intro i hi
  simp only [BitVec.getLsbD_append, BitVec.getLsbD_extractLsb', BitVec.getLsbD_and]
  interval_cases i <;> simp

end

/-! ## What an entry reads after a write -/

section
variable (v : Word)

/-- The written word of a region entry reads the bits it has (R205). -/
theorem regionWord_written (k : Fin 4) (r : Region) :
    regionWord k.val (writeRegion k.val v r) =
      v &&& #v[0xFFFFF000#32, 0x00FF07FF#32, 0xFFFFF000#32, 0xFFFF00FF#32][k] := by
  have shed : ((if v.getLsbD 9 = true then Policy.shed else Policy.stall) == .shed) = v.getLsbD 9 := by
    cases v.getLsbD 9 <;> rfl
  match k with
  | 0 => exact (congrArg (· ++ 0#12) BitVec.extractLsb'_append_eq_right).trans (keptPage v)
  | 1 =>
    show regionWord 1 (writeRegion 1 v r) = v &&& 0x00FF07FF#32
    rw [regionFlagsWord_shown, ← keptFlags v _ shed]
    simp only [writeRegion, BitVec.extractLsb'_append_eq_left]
  | 2 => exact (congrArg (· ++ 0#12) BitVec.extractLsb'_append_eq_right).trans (keptPage v)
  | 3 =>
    show regionWord 3 (writeRegion 3 v r) = v &&& 0xFFFF00FF#32
    rw [regionLimitWord_shown, ← keptLimit]
    simp only [writeRegion, BitVec.extractLsb'_append_eq_left]

/-- The other words of a region entry read as before: each half of a page is in one word. -/
theorem regionWord_other {k k' : Fin 4} (h : k' ≠ k) (r : Region) :
    regionWord k'.val (writeRegion k.val v r) = regionWord k'.val r := by
  match k, k' with
  | 0, 1 =>
    show regionWord 1 (writeRegion 0 v r) = regionWord 1 r
    simp only [regionWord, writeRegion, BitVec.extractLsb'_append_eq_left]
  | 1, 0 => exact congrArg (· ++ 0#12) BitVec.extractLsb'_append_eq_right
  | 2, 3 =>
    show regionWord 3 (writeRegion 2 v r) = regionWord 3 r
    simp only [regionWord, writeRegion, BitVec.extractLsb'_append_eq_left]
  | 3, 2 => exact congrArg (· ++ 0#12) BitVec.extractLsb'_append_eq_right
  | 0, 2 | 0, 3 | 1, 2 | 1, 3 | 2, 0 | 2, 1 | 3, 0 | 3, 1 => rfl
  | 0, 0 | 1, 1 | 2, 2 | 3, 3 => exact absurd rfl h

/-- The written word of a trigger entry reads the bits it has (R7, R205). -/
theorem triggerWord_written (k : Fin 2) (t : Trigger) :
    triggerWord k.val (writeTrigger k.val v t) = v &&& #v[0xFFFFFFF8#32, 0x000003FF#32][k] := by
  match k with
  | 0 => exact keptAddress v _
  | 1 =>
    show triggerWord 1 (writeTrigger 1 v t) = v &&& 0x000003FF#32
    rw [triggerFlagsWord_shown, ← keptTrigger]
    simp only [writeTrigger, BitVec.extractLsb'_append_eq_left]

theorem triggerWord_other {k k' : Fin 2} (h : k' ≠ k) (t : Trigger) :
    triggerWord k'.val (writeTrigger k.val v t) = triggerWord k'.val t := by
  match k, k' with
  | 0, 1 =>
    have top : (t.addr.extractLsb' 32 8 ++ v.extractLsb' 3 29 ++ 0#3).extractLsb' 32 8 = t.addr.extractLsb' 32 8 := by
      rw [BitVec.extractLsb'_append_eq_of_le (by norm_num), BitVec.extractLsb'_append_eq_left]
    show triggerWord 1 (writeTrigger 0 v t) = triggerWord 1 t
    simp only [triggerWord, writeTrigger, top]
  | 1, 0 => exact BitVec.extractLsb'_append_eq_right
  | 0, 0 | 1, 1 => exact absurd rfl h

/-- The written word of an extent entry reads the bits it has (R98, R205). -/
theorem extentWord_written (k : Fin 2) (e : Extent) :
    extentWord k.val (writeExtent k.val v e) = v &&& #v[0xFFFFFFFF#32, 0x07FFFFFF#32][k] := by
  match k with
  | 0 => exact (BitVec.and_allOnes (x := v)).symm
  | 1 => exact (extentFlagsWord_shown _).trans (keptExtent v)

theorem extentWord_other {k k' : Fin 2} (h : k' ≠ k) (e : Extent) :
    extentWord k'.val (writeExtent k.val v e) = extentWord k'.val e := by
  match k, k' with
  | 0, 1 | 1, 0 => rfl
  | 0, 0 | 1, 1 => exact absurd rfl h

end

/-! ## The words of an entry -/

section
variable (s : State)

theorem words_region (n : Fin 16) :
    ((List.range 4).map fun k => readWord s (BitVec.ofNat 16 (0x100 + 4 * n.val + k))) = regionShown s.regions[n] := by
  have read (j : Fin 4) : readWord s (BitVec.ofNat 16 (0x100 + 4 * n.val + j.val)) = regionWord j.val s.regions[n] :=
    readWord_region s n j (toNat_address (by omega))
  calc
    _ = [regionWord 0 s.regions[n], regionWord 1 s.regions[n], regionWord 2 s.regions[n], regionWord 3 s.regions[n]] :=
      congr (congrArg List.cons (read 0)) (congr (congrArg List.cons (read 1))
        (congr (congrArg List.cons (read 2)) (congrArg (· :: []) (read 3))))
    _ = regionShown s.regions[n] := by rw [regionFlagsWord_shown, regionLimitWord_shown]; rfl

theorem words_trigger (n : Fin 4) :
    ((List.range 4).map fun k => readWord s (BitVec.ofNat 16 (0x140 + 4 * n.val + k))) = triggerShown s.triggers[n] := by
  have read (j : Fin 4) : readWord s (BitVec.ofNat 16 (0x140 + 4 * n.val + j.val)) = triggerWord j.val s.triggers[n] :=
    readWord_trigger s n j (toNat_address (by omega))
  calc
    _ = [triggerWord 0 s.triggers[n], triggerWord 1 s.triggers[n], 0, 0] :=
      congr (congrArg List.cons (read 0)) (congr (congrArg List.cons (read 1))
        (congr (congrArg List.cons (read 2)) (congrArg (· :: []) (read 3))))
    _ = triggerShown s.triggers[n] := by rw [triggerFlagsWord_shown]; rfl

theorem words_extent (n : Fin 32) :
    ((List.range 2).map fun k => readWord s (BitVec.ofNat 16 (0x180 + 2 * n.val + k))) = extentShown s.extents[n] := by
  have read (j : Fin 2) : readWord s (BitVec.ofNat 16 (0x180 + 2 * n.val + j.val)) = extentWord j.val s.extents[n] :=
    readWord_extent s n j (toNat_address (by omega))
  calc
    _ = [extentWord 0 s.extents[n], extentWord 1 s.extents[n]] :=
      congr (congrArg List.cons (read 0)) (congrArg (· :: []) (read 1))
    _ = extentShown s.extents[n] := by rw [extentFlagsWord_shown]; rfl

end

/-! ## O54 -/

theorem takeDivisor_small {v : Word} (h : v.toNat ≤ 255) : takeDivisor v = v.setWidth 8 := by
  rw [takeDivisor, if_pos h]
  rfl

/-- Settles O54: a write goes to its entry, of which `writeRegion`, `writeTrigger` and `writeExtent` say the new form. -/
theorem lockedWordsWritten : Obligations.LockedWordsWritten := by
  intro v s
  refine ⟨fun acts running a h => ?_, fun acts stopped => ⟨?_, ?_, fun small => ?_, fun small => ?_, ?_, fun n k => ?_,
    fun n k => ?_, fun n k => ?_⟩, words_region s, words_trigger s, words_extent s⟩
  · rw [exec_lockedWrite acts h, lockedWrite, if_neg running]
    rfl
  · exact exec_setLocked acts stopped rfl v
  · exact exec_setLocked acts stopped rfl v
  · rw [← takeDivisor_small small]
    exact exec_setLocked acts stopped rfl v
  · rw [← takeDivisor_small small]
    exact exec_setLocked acts stopped rfl v
  · exact exec_setLocked acts stopped rfl v
  · have place := toNat_address (n := 0x100 + 4 * n.val + k.val) (by omega)
    refine ⟨writeRegion k.val v s.regions[n], ?_, regionWord_written v k _, fun k' h => regionWord_other v h _, ?_⟩
    · rw [exec_setLocked acts stopped (lockedWord_of_table (by omega)), setLocked_region v s n k place]
    · refine ⟨?_, ?_, ?_, ?_⟩ <;> rintro rfl <;> rfl
  · have place := toNat_address (n := 0x140 + 4 * n.val + k.val) (by omega)
    refine ⟨writeTrigger k.val v s.triggers[n], ?_, triggerWord_written v k _, fun k' h => triggerWord_other v h _, ?_⟩
    · rw [exec_setLocked acts stopped (lockedWord_of_table (by omega)), setLocked_trigger v s n k place]
    · refine ⟨?_, ?_⟩ <;> rintro rfl <;> rfl
  · have place := toNat_address (n := 0x180 + 2 * n.val + k.val) (by omega)
    refine ⟨writeExtent k.val v s.extents[n], ?_, extentWord_written v k _, fun k' h => extentWord_other v h _, ?_⟩
    · rw [exec_setLocked acts stopped (lockedWord_of_table (by omega)), setLocked_extent v s n k place]
    · refine ⟨?_, ?_⟩ <;> rintro rfl <;> rfl

end Sys2Proof.Machine
end

section
/-! PROOFS. The formats of chapter 11: fields of frames and responses, line bits, record and block bytes. -/

namespace Sys2Proof.Machine

/-! ## Command frames -/

section
variable (c : LinkCmd) (tag : Byte) (arg : BitVec 40)

theorem commandFrame_fields :
    (commandFrame c tag arg).extractLsb' 62 2 = 1#2 ∧ (commandFrame c tag arg).extractLsb' 58 4 = commandCode c ∧
      (commandFrame c tag arg).extractLsb' 50 8 = tag ∧ (commandFrame c tag arg).extractLsb' 10 40 = arg := by
  simp (disch := norm_num) only [commandFrame, frameBody, BitVec.extractLsb'_append_eq_of_le]
  exact ⟨rfl, BitVec.extractLsb'_append_eq_right, BitVec.extractLsb'_append_eq_right, BitVec.extractLsb'_append_eq_right⟩

theorem commandFrame_check :
    (commandFrame c tag arg).extractLsb' 2 8 = crc8 (bitsOf ((commandFrame c tag arg).extractLsb' 10 54)) ∧
      (commandFrame c tag arg).extractLsb' 0 2 = 3#2 := by
  have body : (commandFrame c tag arg).extractLsb' 10 54 = frameBody c tag arg := by
    rw [commandFrame, BitVec.extractLsb'_append_eq_of_le (by norm_num)]
    exact BitVec.extractLsb'_append_eq_left
  rw [body, commandFrame, BitVec.extractLsb'_append_eq_of_le (by norm_num)]
  exact ⟨BitVec.extractLsb'_append_eq_right, BitVec.extractLsb'_append_eq_right⟩

/-- The command codes are eight different ones (R208). -/
theorem commandCode_injective {c other : LinkCmd} (h : commandCode c = commandCode other) : c = other := by
  cases c <;> cases other <;> first | rfl | exact absurd h (by decide)

theorem commandFrame_injective {other : LinkCmd} (h : commandFrame c tag arg = commandFrame other tag arg) : c = other := by
  obtain ⟨-, code, -, -⟩ := commandFrame_fields c tag arg
  obtain ⟨-, code', -, -⟩ := commandFrame_fields other tag arg
  exact commandCode_injective (by rw [← code, h, code'])

end

/-! ## Responses -/

/-- A short response as R123 lays it out. -/
def spelledResponse (c : LinkCmd) (tag : Byte) (status : Word) (code : Byte) : BitVec 64 :=
  let body : BitVec 54 := 0#2 ++ commandCode c ++ tag ++ status ++ code
  body ++ crc8 (bitsOf body) ++ 3#2

theorem spelledResponse_fields (c : LinkCmd) (tag : Byte) (status : Word) (code : Byte) :
    (spelledResponse c tag status code).extractLsb' 62 2 = 0#2 ∧
      (spelledResponse c tag status code).extractLsb' 58 4 = commandCode c ∧
      (spelledResponse c tag status code).extractLsb' 50 8 = tag ∧
      (spelledResponse c tag status code).extractLsb' 18 32 = status ∧
      (spelledResponse c tag status code).extractLsb' 10 8 = code := by
  simp (disch := norm_num) only [spelledResponse, BitVec.extractLsb'_append_eq_of_le]
  exact ⟨rfl, BitVec.extractLsb'_append_eq_right, BitVec.extractLsb'_append_eq_right, BitVec.extractLsb'_append_eq_right,
    BitVec.extractLsb'_append_eq_right⟩

theorem spelledResponse_check (c : LinkCmd) (tag : Byte) (status : Word) (code : Byte) :
    crc8 (bitsOf ((spelledResponse c tag status code).extractLsb' 10 54)) = (spelledResponse c tag status code).extractLsb' 2 8 ∧
      (spelledResponse c tag status code).extractLsb' 0 2 = 3#2 := by
  simp only [spelledResponse]
  generalize (0#2 ++ commandCode c ++ tag ++ status ++ code : BitVec 54) = body
  simp (disch := norm_num) only [BitVec.extractLsb'_append_eq_of_le]
  refine ⟨?_, BitVec.extractLsb'_append_eq_right⟩
  rw [BitVec.extractLsb'_append_eq_right, BitVec.extractLsb'_eq_self]

/-- The bits of a field are bits of the whole. -/
theorem getLsbD_field {n : Nat} {x : BitVec n} {start len i : Nat} {y : BitVec len} (h : x.extractLsb' start len = y)
    (inside : i < len) : x.getLsbD (start + i) = y.getLsbD i := by
  rw [← h, BitVec.getLsbD_extractLsb', decide_eq_true inside, Bool.true_and]

theorem spelledResponse_passes (c : LinkCmd) (tag : Byte) (status : Word) (code : Byte) :
    responseWellFormed (spelledResponse c tag status code) = true ∧ shortTransport c tag (spelledResponse c tag status code) = none := by
  obtain ⟨top, command, stamp, -, -⟩ := spelledResponse_fields c tag status code
  obtain ⟨check, last⟩ := spelledResponse_check c tag status code
  have start : (spelledResponse c tag status code).getLsbD 63 = false := getLsbD_field top (i := 1) (by norm_num)
  have direction : (spelledResponse c tag status code).getLsbD 62 = false := getLsbD_field top (i := 0) (by norm_num)
  refine ⟨by rw [responseWellFormed, start]; rfl, ?_⟩
  rw [shortTransport, check, direction, last, command, stamp]
  simp

/-- A long response as R123 and R208 lay it out. -/
def spelledIdentity (tag : Byte) (capacity : Word) (sizes width : BitVec 4) (unnamed : BitVec 24) (serial : BitVec 64) :
    BitVec 160 :=
  let body : BitVec 142 := 0#2 ++ 2#4 ++ tag ++ capacity ++ sizes ++ width ++ unnamed ++ serial
  body ++ crc16 (bitsOf body) ++ 3#2

section
variable (tag : Byte) (capacity : Word) (sizes width : BitVec 4) (unnamed : BitVec 24) (serial : BitVec 64)

theorem spelledIdentity_head :
    (spelledIdentity tag capacity sizes width unnamed serial).extractLsb' 158 2 = 0#2 ∧
      (spelledIdentity tag capacity sizes width unnamed serial).extractLsb' 154 4 = 2#4 ∧
      (spelledIdentity tag capacity sizes width unnamed serial).extractLsb' 146 8 = tag := by
  simp (disch := norm_num) only [spelledIdentity, BitVec.extractLsb'_append_eq_of_le]
  exact ⟨rfl, BitVec.extractLsb'_append_eq_right, BitVec.extractLsb'_append_eq_right⟩

theorem longIdentity_spelled :
    longIdentity (spelledIdentity tag capacity sizes width unnamed serial) = ⟨capacity, sizes, width, serial⟩ := by
  have places : (spelledIdentity tag capacity sizes width unnamed serial).extractLsb' 114 32 = capacity ∧
      (spelledIdentity tag capacity sizes width unnamed serial).extractLsb' 110 4 = sizes ∧
      (spelledIdentity tag capacity sizes width unnamed serial).extractLsb' 106 4 = width ∧
      (spelledIdentity tag capacity sizes width unnamed serial).extractLsb' 18 64 = serial := by
    simp (disch := norm_num) only [spelledIdentity, BitVec.extractLsb'_append_eq_of_le]
    exact ⟨BitVec.extractLsb'_append_eq_right, BitVec.extractLsb'_append_eq_right, BitVec.extractLsb'_append_eq_right,
      BitVec.extractLsb'_append_eq_right⟩
  obtain ⟨first, second, third, fourth⟩ := places
  exact congr (congr (congr (congrArg Identity.mk first) second) third) fourth

theorem spelledIdentity_check :
    crc16 (bitsOf ((spelledIdentity tag capacity sizes width unnamed serial).extractLsb' 18 142)) =
        (spelledIdentity tag capacity sizes width unnamed serial).extractLsb' 2 16 ∧
      (spelledIdentity tag capacity sizes width unnamed serial).extractLsb' 0 2 = 3#2 := by
  simp only [spelledIdentity]
  generalize (0#2 ++ 2#4 ++ tag ++ capacity ++ sizes ++ width ++ unnamed ++ serial : BitVec 142) = body
  simp (disch := norm_num) only [BitVec.extractLsb'_append_eq_of_le]
  refine ⟨?_, BitVec.extractLsb'_append_eq_right⟩
  rw [BitVec.extractLsb'_append_eq_right, BitVec.extractLsb'_eq_self]

theorem spelledIdentity_passes :
    longResponseWellFormed (spelledIdentity tag capacity sizes width unnamed serial) = true ∧
      longTransport .ident tag (spelledIdentity tag capacity sizes width unnamed serial) = none := by
  obtain ⟨top, command, stamp⟩ := spelledIdentity_head tag capacity sizes width unnamed serial
  obtain ⟨check, last⟩ := spelledIdentity_check tag capacity sizes width unnamed serial
  have start : (spelledIdentity tag capacity sizes width unnamed serial).getLsbD 159 = false :=
    getLsbD_field top (i := 1) (by norm_num)
  have direction : (spelledIdentity tag capacity sizes width unnamed serial).getLsbD 158 = false :=
    getLsbD_field top (i := 0) (by norm_num)
  refine ⟨by rw [longResponseWellFormed, start]; rfl, ?_⟩
  rw [longTransport, check, direction, last, command, stamp]
  simp [commandCode]

end

/-! ## Data lines -/

theorem bitsOf_getElem? {n : Nat} (x : BitVec n) {i : Nat} (h : i < n) : (bitsOf x)[i]? = some (x.getLsbD (n - 1 - i)) := by
  rw [bitsOf, List.getElem?_map, List.getElem?_range h, Option.map_some, BitVec.getMsbD_eq_getLsbD, decide_eq_true h,
    Bool.true_and]

theorem flatMap_length {α β : Type} {f : α → List β} {n : Nat} (h : ∀ a, (f a).length = n) (l : List α) :
    (l.flatMap f).length = n * l.length := by
  simp [List.length_flatMap, h, Nat.mul_comm]

/-- Of lists of one length put behind each other, the element at a place in one of them. -/
theorem flatMap_getElem? {α β : Type} {f : α → List β} {n : Nat} (h : ∀ a, (f a).length = n) {l : List α} {k : Nat} {a : α}
    (at_k : l[k]? = some a) {i : Nat} (inside : i < n) : (l.flatMap f)[n * k + i]? = (f a)[i]? := by
  induction l generalizing k with
  | nil => cases at_k
  | cons b l ih =>
    rw [List.flatMap_cons]
    cases k with
    | zero =>
      cases at_k
      rw [Nat.mul_zero, Nat.zero_add, List.getElem?_append_left (by rw [h]; exact inside)]
    | succ k =>
      have behind : n * (k + 1) + i - (f b).length = n * k + i := by
        rw [h, Nat.mul_add, Nat.mul_one]
        omega
      rw [List.getElem?_append_right (by rw [h, Nat.mul_add, Nat.mul_one]; omega), behind]
      exact ih at_k

theorem lineBits_one {bytes : List Byte} {k : Nat} {b : Byte} (h : bytes[k]? = some b) {n : Nat} (inside : n < 8) :
    (lineBits .one 0 bytes)[8 * k + n]? = some (b.getLsbD (7 - n)) :=
  (flatMap_getElem? (fun x : Byte => bitsOf_length x) h inside).trans (bitsOf_getElem? b inside)

theorem lineBits_four {bytes : List Byte} {k : Nat} {b : Byte} (h : bytes[k]? = some b) (j : Nat) :
    (lineBits .four j bytes)[2 * k]? = some (b.getLsbD (4 + j)) ∧
      (lineBits .four j bytes)[2 * k + 1]? = some (b.getLsbD j) :=
  ⟨flatMap_getElem? (n := 2) (f := fun b : Byte => [b.getLsbD (4 + j), b.getLsbD j]) (fun _ => rfl) h (i := 0) (by norm_num),
    flatMap_getElem? (n := 2) (f := fun b : Byte => [b.getLsbD (4 + j), b.getLsbD j]) (fun _ => rfl) h (i := 1) (by norm_num)⟩

theorem blockInGood_iff (w : Width) (b : BlockIn) : blockInGood w b = true ↔
    b.aligned = true ∧ ∀ j < (if w = .four then 4 else 1),
      b.crcs[j]? = some (crc16 (lineBits w j b.bytes)) ∧ b.ends[j]? = some true := by
  have lines : widthLines w = if w = .four then 4 else 1 := by cases w <;> rfl
  simp only [blockInGood, lines, Bool.and_eq_true, List.all_eq_true, List.mem_range, beq_iff_eq]

/-- The check code on a line, most significant bit first (R132). -/
theorem lineFrame_code (w : Width) (j : Nat) (bytes : List Byte) : ∃ code : List Bool, code.length = 16 ∧
    lineFrame w j bytes = [false] ++ lineBits w j bytes ++ code ++ [true] ∧
    ∀ n < 16, code[n]? = some ((crc16 (lineBits w j bytes)).getLsbD (15 - n)) :=
  ⟨_, bitsOf_length _, rfl, fun _ inside => bitsOf_getElem? _ inside⟩

/-! ## Store bytes -/

theorem bytesLE_length (n v : Nat) : (bytesLE n v).length = n := by simp [bytesLE]

theorem zeros_length (n : Nat) : (zeros n).length = n := by simp [zeros]

/-- Bytes that are not named are zero. -/
theorem fitBytes_fill {n z : Nat} {bytes : List Byte} (h : bytes.length + z = n) : fitBytes n bytes = bytes ++ zeros z := by
  subst h
  rw [fitBytes, List.take_of_length_le (by omega), Nat.add_sub_cancel_left, zeros]

/-- The two flags of a record (R206). -/
theorem flagByte (b0 b1 : Bool) : BitVec.ofNat 8 (bitAt b0 0 + bitAt b1 1) = 0#6 ++ BitVec.ofBool b1 ++ BitVec.ofBool b0 := by
  cases b0 <;> cases b1 <;> rfl

theorem flagByte_one (b : Bool) : BitVec.ofNat 8 (bitAt b 0) = 0#6 ++ BitVec.ofBool false ++ BitVec.ofBool b := by
  cases b <;> rfl

theorem sourceByte (x : Source) : BitVec.ofNat 8 (sourceCode x) = 0#5 ++ sourceShown x := by
  rw [sourceCode_shown]
  generalize sourceShown x = y
  apply BitVec.eq_of_toNat_eq
  simp only [BitVec.toNat_append, BitVec.toNat_ofNat]
  have := y.isLt
  simp
  omega

/-- The 32 bytes of a strobe mask (R206). -/
theorem maskBytes (m : BitVec 256) : littleEndian 32 m.toNat = (List.range 32).map fun k => m.extractLsb' (8 * k) 8 := by
  rw [littleEndian_eq, bytesLE]
  refine List.map_congr_left fun k _ => BitVec.eq_of_toNat_eq ?_
  rw [BitVec.toNat_ofNat, BitVec.extractLsb'_toNat, Nat.shiftRight_eq_div_pow, Nat.pow_mul]

/-- The bytes of a record are those its kind has from byte 8 on behind its head, filled with zero (R24, R206). -/
theorem recordBytes_layout {r : Record} (whole : ∀ f, r.body = .data f → f.data.length = f.length) :
    recordBytes r = recordLayout r := by
  obtain ⟨seq, body⟩ := r
  unfold recordBytes recordLayout recordSize bodySize
  cases body with
  | gen f =>
    simp only [littleEndian_eq, flagByte_one, blockBytes_shown]
    rw [fitBytes_fill (z := 19) (by simp [bytesLE_length])]
  | data f =>
    have length : f.data.length = f.length := whole f rfl
    simp only [littleEndian_eq, flagByte, dataSize, roundUp8]
    rw [fitBytes_fill (z := (f.length + 7) / 8 * 8 - f.length)]
    · cases f.mask with
      | none => simp [List.append_assoc]
      | some m => simp [List.append_assoc, ← littleEndian_eq, maskBytes]
    · cases f.mask with
      | none =>
        simp [bytesLE_length, length]
        omega
      | some m =>
        simp [bytesLE_length, length]
        omega
  | gap f =>
    simp only [littleEndian_eq, flagByte_one]
    rw [fitBytes_fill (z := 0) (by simp [bytesLE_length])]
    simp [zeros]
  | mark f =>
    simp only [littleEndian_eq, flagByte, sourceByte]
    rw [fitBytes_fill (z := 3) (by simp [bytesLE_length])]
  | void f =>
    simp only [littleEndian_eq]
    rw [fitBytes_fill (z := 7) (by simp [bytesLE_length])]

theorem recordSize_aligned (r : Record) : recordSize r % 8 = 0 := by
  obtain ⟨seq, body⟩ := r
  unfold recordSize bodySize
  cases body with
  | data f =>
    simp only [dataSize, roundUp8]
    split <;> omega
  | gen | gap | mark | void => simp

/-- Header and payload of a sealed block (R207). -/
theorem blockFront_layout {size : BlockSize} {b : Block} (h : b.draft.payload.length ≤ payloadSize size) :
    blockFront size b = frontLayout (blockBytes size) b := by
  have filled : b.draft.payload.length + (blockBytes size - 32 - b.draft.payload.length) = payloadSize size := by
    unfold payloadSize at h ⊢
    omega
  unfold blockFront headerBytes frontLayout
  rw [fitBytes_fill filled, fitBytes_fill (z := 7) (by simp only [littleEndian_eq]; simp [bytesLE_length])]
  simp only [littleEndian_eq, causeCode_shown, List.append_assoc]

theorem frontLayout_length {size : BlockSize} {b : Block} (h : b.draft.payload.length ≤ payloadSize size) :
    (frontLayout (blockBytes size) b).length = blockBytes size - 4 := by
  have large : 32 ≤ blockBytes size := by cases size <;> decide
  unfold payloadSize at h
  simp only [frontLayout, List.length_append, bytesLE_length, zeros_length, List.length_singleton]
  omega

theorem sealedBytes_layout {size : BlockSize} {b : Block} (h : b.draft.payload.length ≤ payloadSize size) :
    sealedBytes size b = frontLayout (blockBytes size) b ++ bytesLE 4 (crc32 (frontLayout (blockBytes size) b)).toNat ∧
      (sealedBytes size b).length = blockBytes size := by
  have large : 4 ≤ blockBytes size := by cases size <;> decide
  have layout : sealedBytes size b =
      frontLayout (blockBytes size) b ++ bytesLE 4 (crc32 (frontLayout (blockBytes size) b)).toNat := by
    rw [sealedBytes, blockFront_layout h, littleEndian_eq]
  refine ⟨layout, ?_⟩
  rw [layout, List.length_append, frontLayout_length h, bytesLE_length]
  omega

/-! ## O37 -/

/-- Settles O37: each format by the places of its fields, the check codes as remainders by definition. -/
theorem linkFramesSpelled : Obligations.LinkFramesSpelled := by
  intro c tag
  refine ⟨fun arg => ?_, fun status code => ?_, fun arg other h => commandFrame_injective c tag arg h, commandCode_shown c,
    fun capacity sizes width unnamed serial => ?_, fun bytes => ⟨?_, fun j => ?_, fun k b h => ⟨fun n inside => ?_, fun j _ => ?_⟩,
      fun w j => lineFrame_code w j bytes⟩, blockInGood_iff, fun bits => ⟨rfl, rfl⟩, fun bytes => rfl,
    fun r whole => ⟨recordBytes_layout whole, recordBytes_length r, recordSize_aligned r⟩,
    fun size b h => sealedBytes_layout h⟩
  · obtain ⟨top, command, stamp, argument⟩ := commandFrame_fields c tag arg
    exact ⟨top, command, stamp, argument, commandFrame_check c tag arg⟩
  · obtain ⟨formed, passes⟩ := spelledResponse_passes c tag status code
    obtain ⟨-, -, -, word, state⟩ := spelledResponse_fields c tag status code
    exact ⟨formed, passes, word, state⟩
  · obtain ⟨formed, passes⟩ := spelledIdentity_passes tag capacity sizes width unnamed serial
    exact ⟨formed, passes, longIdentity_spelled tag capacity sizes width unnamed serial⟩
  · exact flatMap_length (fun x : Byte => bitsOf_length x) bytes
  · exact flatMap_length (n := 2) (fun _ => rfl) bytes
  · exact lineBits_one h inside
  · exact lineBits_four h j

end Sys2Proof.Machine
end

section
/-! PROOFS. What the Link Engine and the command slot leave alone: staging and what is open in it, the length of the Marker List,
the counts of the Space Tracker and its head, the blocks that assemble, and the flags that may come to be set. -/

namespace Sys2Proof.Machine

/-- The flags and enables of which R191 speaks, as one mask, and the head, the counts and the chain of the Space Tracker. -/
structure Ledger where
  cover       : Half
  head        : Pos
  used        : Nat
  durableUsed : Nat
  chain       : List Extent

/-- The flags that may be set after a happening (R191): those set, and those enabled. -/
def cover (e : Events) : Half := e.flags ||| e.enables

/-- The ledger of a state. -/
def ledger (s : State) : Ledger :=
  ⟨cover s.events, s.space.head, s.space.used, s.space.durableUsed, s.space.chain⟩

/-- What the Bridge carries beside the link: staging, the Marker List's length, the assembling blocks, and the ledger. -/
structure Cargo where
  queue   : List Staged
  openRec : Option OpenRec
  openGap : Option OpenGap
  markers : Nat
  drafts  : Vector (Option Draft) 8
  ledger  : Ledger

/-- The cargo of a state. -/
def cargo (s : State) : Cargo :=
  ⟨s.staging.queue, s.capture.openRec, s.capture.openGap, s.markers.entries.length, s.window.map slotDraft, ledger s⟩

/-- Every field of the view, read through the view. -/
theorem to_cargo (s : State) :
    s.staging.queue = (cargo s).queue ∧ s.capture.openRec = (cargo s).openRec ∧ s.capture.openGap = (cargo s).openGap ∧
      s.markers.entries.length = (cargo s).markers ∧ s.window.map slotDraft = (cargo s).drafts ∧
      cover s.events = (cargo s).ledger.cover ∧ s.space.head = (cargo s).ledger.head ∧
      s.space.used = (cargo s).ledger.used ∧ s.space.durableUsed = (cargo s).ledger.durableUsed ∧
      s.space.chain = (cargo s).ledger.chain :=
  ⟨rfl, rfl, rfl, rfl, rfl, rfl, rfl, rfl, rfl, rfl⟩

/-- The view of a state given by its fields. -/
@[simp] theorem cargo_mk (pornLow mgmtIgnore held regions triggers extents words argWord rtq capture staging framer window
    markers space link buffer journal events counters ports pending) :
    cargo (State.mk pornLow mgmtIgnore held regions triggers extents words argWord rtq capture staging framer window
      markers space link buffer journal events counters ports pending) =
      ⟨staging.queue, capture.openRec, capture.openGap, markers.entries.length, window.map slotDraft,
        cover events, space.head, space.used, space.durableUsed, space.chain⟩ := rfl

/-! ## Flags and slots -/

/-- What becomes set is enabled (R191, R194). -/
theorem cover_or (e : Events) (m : Half) : cover { e with flags := e.flags ||| (m &&& e.enables) } = cover e := by
  apply BitVec.eq_of_getLsbD_eq
  intro i _
  simp only [cover, BitVec.getLsbD_or, BitVec.getLsbD_and]
  cases e.flags.getLsbD i <;> cases e.enables.getLsbD i <;> simp

@[simp] theorem cover_raiseIf (s : State) (c : Bool) (e : Event) : cover (raiseIf c e s).events = cover s.events := by
  cases c
  · exact congrArg cover (congrArg (fun f => { s.events with flags := f }) (BitVec.or_zero (x := s.events.flags)))
  · exact cover_or s.events _

/-- The place found for a slot that holds something is a place that holds it. -/
theorem findSome?_place {α : Type} {f : Fin 8 → Option α} {i : Fin 8} {x : α}
    (h : ((List.finRange 8).findSome? fun i => (f i).map (i, ·)) = some (i, x)) : f i = some x := by
  obtain ⟨j, -, hj⟩ := List.exists_of_findSome?_eq_some h
  obtain ⟨y, hy, e⟩ := Option.map_eq_some_iff.1 hj
  cases e
  exact hy

theorem window_of_assembling {s : State} {i : Fin 8} {d : Draft} (h : assembling s = some (i, d)) :
    s.window[i] = .assembling d := by
  have found : slotDraft s.window[i] = some d := findSome?_place h
  cases hx : s.window[i] <;> rw [hx] at found <;> cases found
  rfl

theorem window_of_inFlight {s : State} {i : Fin 8} {b : Block} (h : inFlight s = some (i, b)) :
    s.window[i] = .inFlight b := by
  have found : slotInFlight s.window[i] = some b := findSome?_place h
  cases hx : s.window[i] <;> rw [hx] at found <;> cases found
  rfl

theorem window_of_lowestFree {s : State} {i : Fin 8} (h : lowestFree s = some i) : s.window[i] = .free := by
  have free : slotFree s.window[i] = true := List.find?_some (p := fun i : Fin 8 => slotFree s.window[i]) h
  cases hx : s.window[i] <;> rw [hx] at free <;> cases free

/-- A candidate stays one as the slots are gone through. -/
theorem olderBlock_sealed {s : State} {best : Option (Fin 8 × Block)} {i j : Fin 8} {b : Block}
    (ok : ∀ i b, best = some (i, b) → s.window[i] = .sealed b) (h : olderBlock s best j = some (i, b)) :
    s.window[i] = .sealed b := by
  have own {x : Block} (hx : slotSealed s.window[j] = some x) : s.window[j] = .sealed x := by
    cases hw : s.window[j] <;> rw [hw] at hx <;> cases hx
    rfl
  unfold olderBlock at h
  split at h
  · exact ok i b h
  · cases h
    exact own ‹_›
  · split at h
    · cases h
      exact own ‹_›
    · exact ok i b h

theorem window_of_oldestSealed {s : State} {i : Fin 8} {b : Block} (h : oldestSealed s = some (i, b)) :
    s.window[i] = .sealed b := by
  have all : ∀ (l : List (Fin 8)) (best : Option (Fin 8 × Block)), (∀ i b, best = some (i, b) → s.window[i] = .sealed b) →
      ∀ i b, l.foldl (olderBlock s) best = some (i, b) → s.window[i] = .sealed b := by
    intro l
    induction l with
    | nil => exact fun _ ok => ok
    | cons j l ih => exact fun best ok => ih _ fun i b => olderBlock_sealed ok
  exact all _ none (fun _ _ e => nomatch e) i b h

/-- A slot that is replaced by one of the same view leaves that view of the window. -/
theorem map_set_same {α β : Type} {f : α → β} {v : Vector α 8} {i : Fin 8} {x : α} (h : f x = f v[i]) :
    (v.set i x).map f = v.map f := by
  apply Vector.ext
  intro j hj
  rw [Vector.getElem_map, Vector.getElem_map, Vector.getElem_set]
  split
  · subst_vars
    exact h
  · rfl

@[simp] theorem drafts_returnInFlight (s : State) : (returnInFlight s).window.map slotDraft = s.window.map slotDraft := by
  unfold returnInFlight
  dsimp only
  split
  · rename_i i b h
    exact map_set_same (by rw [window_of_inFlight h]; rfl)
  · rfl

@[simp] theorem drafts_startBlock (s : State) : (startBlock s).window.map slotDraft = s.window.map slotDraft := by
  unfold startBlock
  split
  · rename_i i b h
    exact map_set_same (by rw [window_of_oldestSealed h]; rfl)
  · rfl

/-! ## Cargo, operation by operation -/

@[simp] theorem cargo_raiseIf (s : State) (c : Bool) (e : Event) : cargo (raiseIf c e s) = cargo s := by
  simp only [cargo, ledger, cover_raiseIf]
  rfl

@[simp] theorem cargo_raise (s : State) (e : Event) : cargo (raise e s) = cargo s := by
  simp [raise]

@[simp] theorem cargo_bump (s : State) (c : Counter) (n : Nat) : cargo (bump c n s) = cargo s := by
  simp [bump, to_cargo]

@[simp] theorem cargo_clearCounter (s : State) (i : Fin 15) : cargo (clearCounter i s) = cargo s := by
  simp [clearCounter, to_cargo]

@[simp] theorem cargo_noteCut (s : State) : cargo (noteCut s) = cargo s := by
  simp [noteCut, to_cargo]

@[simp] theorem cargo_noteShifted (s : State) (bits : List Bool) : cargo (noteShifted bits s) = cargo s := by
  unfold noteShifted; split <;> simp [to_cargo]

@[simp] theorem cargo_compareLow (s : State) : cargo (compareLow s) = cargo s := by
  simp [compareLow, to_cargo]

@[simp] theorem cargo_nextNumber (s : State) : cargo (nextNumber s) = cargo s := by
  simp [nextNumber, to_cargo]

@[simp] theorem cargo_runCommand (s : State) (code : BitVec 4) : cargo (runCommand code s) = cargo s := by
  simp [runCommand, to_cargo]

@[simp] theorem cargo_answerCommand (s : State) (code : BitVec 4) (status : CmdStatus) (reason : Option Reason) (r0 r1 : Word) : cargo (answerCommand code status reason r0 r1 s) = cargo s := by
  simp [answerCommand, to_cargo]

@[simp] theorem cargo_refuse (s : State) (code : BitVec 4) (reason : Reason) : cargo (refuse code reason s) = cargo s := by
  simp [refuse]

@[simp] theorem cargo_complete (s : State) (code : BitVec 4) (r0 r1 : Word) : cargo (complete code r0 r1 s) = cargo s := by
  simp [complete]

@[simp] theorem cargo_endRunning (s : State) (status : CmdStatus) (reason : Option Reason) (r0 r1 : Word) : cargo (endRunning status reason r0 r1 s) = cargo s := by
  simp [endRunning, to_cargo]

@[simp] theorem cargo_overtake (s : State) : cargo (overtake s) = cargo s := by
  simp [overtake, to_cargo]

@[simp] theorem cargo_takeCommand (s : State) (code : BitVec 4) (admitted : Bool) (own : State → State) (hf : ∀ s, cargo (own s) = cargo s) : cargo (takeCommand code admitted own s) = cargo s := by
  unfold takeCommand; dsimp only; (repeat' split) <;> simp [hf]

@[simp] theorem cargo_quiescent (s : State) : cargo (quiescent s) = cargo s := by
  unfold quiescent; (repeat' split) <;> simp [to_cargo]

@[simp] theorem cargo_faultSignal (s : State) : cargo (faultSignal s) = cargo s := by
  unfold faultSignal; split <;> simp [to_cargo]

@[simp] theorem cargo_startReady (s : State) : cargo (startReady s) = cargo s := by
  simp [startReady, to_cargo]

@[simp] theorem cargo_recovered (s : State) : cargo (recovered s) = cargo s := by
  unfold recovered; split <;> simp [to_cargo]

@[simp] theorem cargo_returnInFlight (s : State) : cargo (returnInFlight s) = cargo s := by
  simp only [cargo, ledger, drafts_returnInFlight]
  rfl

@[simp] theorem cargo_sendFrame (s : State) (c : LinkCmd) : cargo (sendFrame c s) = cargo s := by
  simp [sendFrame, to_cargo]

@[simp] theorem cargo_restIn (s : State) (st : LinkState) : cargo (restIn st s) = cargo s := by
  simp [restIn, to_cargo]

@[simp] theorem cargo_awaitGap (s : State) (c : LinkCmd) : cargo (awaitGap c s) = cargo s := by
  simp [awaitGap, to_cargo]

@[simp] theorem cargo_issueCommand (s : State) (c : LinkCmd) : cargo (issueCommand c s) = cargo s := by
  unfold issueCommand; split <;> simp [to_cargo]

@[simp] theorem cargo_startBlock (s : State) : cargo (startBlock s) = cargo s := by
  have rest : ledger (startBlock s) = ledger s := by unfold startBlock; split <;> rfl
  simp only [cargo, rest, drafts_startBlock]
  unfold startBlock
  split <;> rfl

@[simp] theorem cargo_endIdleRun (s : State) (cmdGap : Bool) : cargo (endIdleRun cmdGap s) = cargo s := by
  unfold endIdleRun; split <;> simp [to_cargo]

@[simp] theorem cargo_startIdle (s : State) (cmdGap : Bool) : cargo (startIdle cmdGap s) = cargo s := by
  unfold startIdle; (repeat' split) <;> simp [to_cargo]

@[simp] theorem cargo_act (s : State) (cmdGap dataGap : Bool) (c : Choice) : cargo (act cmdGap dataGap s c) = cargo s := by
  unfold act; (repeat' split) <;> simp [to_cargo]

@[simp] theorem cargo_closeRun (s : State) : cargo (closeRun s) = cargo s := by
  simp [closeRun, to_cargo]

@[simp] theorem cargo_linkChoose (s : State) : cargo (linkChoose s) = cargo s := by
  unfold linkChoose; (repeat' split) <;> simp

@[simp] theorem cargo_linkError (s : State) (k : LinkErr) (c : LinkCmd) (tag : Byte) (serial addr : Option Word) (attempt : Nat) (o : ErrOutcome) : cargo (linkError k c tag serial addr attempt o s) = cargo s := by
  simp [linkError, to_cargo]

@[simp] theorem cargo_enterFault (s : State) : cargo (enterFault s) = cargo s := by
  simp [enterFault, to_cargo]

@[simp] theorem cargo_countRetry (s : State) : cargo (countRetry s) = cargo s := by
  simp [countRetry]

@[simp] theorem cargo_loadInit (s : State) : cargo (loadInit s) = cargo s := by
  simp [loadInit, to_cargo]

@[simp] theorem cargo_initFromOff (s : State) : cargo (initFromOff s) = cargo s := by
  simp [initFromOff, to_cargo]

@[simp] theorem cargo_beginInit (s : State) : cargo (beginInit s) = cargo s := by
  unfold beginInit; dsimp only; (repeat' split) <;> simp [to_cargo]

@[simp] theorem cargo_initSucceeds (s : State) : cargo (initSucceeds s) = cargo s := by
  unfold initSucceeds; dsimp only; (repeat' split) <;> simp [to_cargo]

@[simp] theorem cargo_initFails (s : State) (k : LinkErr) (c : LinkCmd) : cargo (initFails k c s) = cargo s := by
  simp [initFails]

@[simp] theorem cargo_initTransport (s : State) (k : LinkErr) (c : LinkCmd) : cargo (initTransport k c s) = cargo s := by
  unfold initTransport; dsimp only; (repeat' split) <;> simp [to_cargo]

@[simp] theorem cargo_keepIdentity (s : State) (i : Identity) : cargo (keepIdentity i s) = cargo s := by
  simp [keepIdentity, to_cargo]

@[simp] theorem cargo_identTaken (s : State) (i : Identity) : cargo (identTaken i s) = cargo s := by
  unfold identTaken; dsimp only; (repeat' split) <;> simp [to_cargo]

@[simp] theorem cargo_endReadback (s : State) (status : CmdStatus) (reason : Option Reason) : cargo (endReadback status reason s) = cargo s := by
  simp [endReadback, to_cargo]

@[simp] theorem cargo_commandFails (s : State) (c : LinkCmd) : cargo (commandFails c s) = cargo s := by
  unfold commandFails; split <;> simp

@[simp] theorem cargo_retryOrFail (s : State) (k : LinkErr) (c : LinkCmd) : cargo (retryOrFail k c s) = cargo s := by
  unfold retryOrFail; dsimp only; (repeat' split) <;> simp [to_cargo]

@[simp] theorem cargo_transportError (s : State) (k : LinkErr) (c : LinkCmd) : cargo (transportError k c s) = cargo s := by
  unfold transportError; split <;> simp

@[simp] theorem cargo_statusError (s : State) (k : LinkErr) (c : LinkCmd) (status : Word) : cargo (statusError k c status s) = cargo s := by
  unfold statusError; dsimp only; (repeat' split) <;> simp

@[simp] theorem cargo_discardExchange (s : State) : cargo (discardExchange s) = cargo s := by
  simp [discardExchange, to_cargo]

@[simp] theorem cargo_inWindow (s : State) (c : LinkCmd) (f : State → State) (hf : ∀ s, cargo (f s) = cargo s) : cargo (inWindow c f s) = cargo s := by
  unfold inWindow; (repeat' split) <;> simp [hf]

@[simp] theorem cargo_shortResponse (s : State) (c : LinkCmd) (bits : BitVec 64) (taken : State → State) (hf : ∀ s, cargo (taken s) = cargo s) : cargo (shortResponse c bits taken s) = cargo s := by
  exact cargo_inWindow s c _ fun s => by
    dsimp only; (repeat' split) <;> simp [to_cargo, hf]

@[simp] theorem cargo_awaitBusy (s : State) (c : LinkCmd) : cargo (awaitBusy c s) = cargo s := by
  simp [awaitBusy, to_cargo]

@[simp] theorem cargo_closeAfterFailure (s : State) : cargo (closeAfterFailure s) = cargo s := by
  simp [closeAfterFailure, to_cargo]

@[simp] theorem cargo_blockFails (s : State) (k : LinkErr) (awaits : Bool) (serial addr : Word) : cargo (blockFails k awaits serial addr s) = cargo s := by
  unfold blockFails; dsimp only; (repeat' split) <;> simp [to_cargo]

@[simp] theorem cargo_inTokenWindow (s : State) (f : Word → Word → State → State) (hf : ∀ serial addr s, cargo (f serial addr s) = cargo s) : cargo (inTokenWindow f s) = cargo s := by
  unfold inTokenWindow; split <;> simp [hf]

@[simp] theorem cargo_tokenBusyEnds (s : State) : cargo (tokenBusyEnds s) = cargo s := by
  unfold tokenBusyEnds; (repeat' split) <;> simp [to_cargo]

@[simp] theorem cargo_tokenBusyTimeout (s : State) (serial addr : Word) : cargo (tokenBusyTimeout serial addr s) = cargo s := by
  simp [tokenBusyTimeout, to_cargo]

@[simp] theorem cargo_commandBusyTimeout (s : State) (c : LinkCmd) : cargo (commandBusyTimeout c s) = cargo s := by
  simp [commandBusyTimeout]

@[simp] theorem cargo_abandonLink (s : State) : cargo (abandonLink s) = cargo s := by
  unfold abandonLink; dsimp only; (repeat' split) <;> simp [to_cargo]

@[simp] theorem cargo_abandonmentEnds (s : State) : cargo (abandonmentEnds s) = cargo s := by
  unfold abandonmentEnds; dsimp only; (repeat' split) <;> simp [to_cargo]

@[simp] theorem cargo_idlePeriodEnds (s : State) : cargo (idlePeriodEnds s) = cargo s := by
  unfold idlePeriodEnds; split <;> simp

@[simp] theorem cargo_settleEnds (s : State) : cargo (settleEnds s) = cargo s := by
  unfold settleEnds; (repeat' split) <;> simp

@[simp] theorem cargo_frameEnds (s : State) (c : LinkCmd) : cargo (frameEnds c s) = cargo s := by
  unfold frameEnds; split <;> simp [to_cargo]

@[simp] theorem cargo_commandFrameEnds (s : State) : cargo (commandFrameEnds s) = cargo s := by
  unfold commandFrameEnds; split <;> simp

@[simp] theorem cargo_commandGapEnds (s : State) : cargo (commandGapEnds s) = cargo s := by
  unfold commandGapEnds; split <;> simp [to_cargo]

@[simp] theorem cargo_windowTimeout (s : State) : cargo (windowTimeout s) = cargo s := by
  unfold windowTimeout; split <;> simp

@[simp] theorem cargo_identResponse (s : State) (bits : BitVec 160) : cargo (identResponse bits s) = cargo s := by
  exact cargo_inWindow s .ident _ fun s => by split <;> simp

@[simp] theorem cargo_pollEnds (s : State) : cargo (pollEnds s) = cargo s := by
  unfold pollEnds; split <;> simp

@[simp] theorem cargo_initLimit (s : State) : cargo (initLimit s) = cargo s := by
  unfold initLimit; (repeat' split) <;> simp [to_cargo]

@[simp] theorem cargo_setupTaken (s : State) : cargo (setupTaken s) = cargo s := by
  simp [setupTaken, to_cargo]

@[simp] theorem cargo_writeRunTaken (s : State) : cargo (writeRunTaken s) = cargo s := by
  simp [writeRunTaken, to_cargo]

@[simp] theorem cargo_endRunTaken (s : State) : cargo (endRunTaken s) = cargo s := by
  simp [endRunTaken, to_cargo]

@[simp] theorem cargo_readOneTaken (s : State) : cargo (readOneTaken s) = cargo s := by
  simp [readOneTaken, to_cargo]

@[simp] theorem cargo_dataGapEnds (s : State) : cargo (dataGapEnds s) = cargo s := by
  unfold dataGapEnds; (repeat' split) <;> simp [to_cargo]

@[simp] theorem cargo_blockOutEnds (s : State) : cargo (blockOutEnds s) = cargo s := by
  unfold blockOutEnds; split <;> simp [to_cargo]

@[simp] theorem cargo_busyExpires (s : State) : cargo (busyExpires s) = cargo s := by
  unfold busyExpires; split <;> simp

@[simp] theorem cargo_idleExpires (s : State) : cargo (idleExpires s) = cargo s := by
  unfold idleExpires; split <;> simp

@[simp] theorem cargo_blockReceived (s : State) (b : BlockIn) : cargo (blockReceived b s) = cargo s := by
  unfold blockReceived; dsimp only; (repeat' split) <;> simp [to_cargo]

@[simp] theorem cargo_readBlockIn (s : State) (b : BlockIn) : cargo (readBlockIn b s) = cargo s := by
  unfold readBlockIn; split <;> simp

@[simp] theorem cargo_readWindowExpires (s : State) : cargo (readWindowExpires s) = cargo s := by
  unfold readWindowExpires; split <;> simp

@[simp] theorem cargo_resumeTaken (s : State) : cargo (resumeTaken s) = cargo s := by
  simp [resumeTaken, to_cargo]

@[simp] theorem cargo_resumeOwn (s : State) : cargo (resumeOwn s) = cargo s := by
  unfold resumeOwn; split <;> simp

@[simp] theorem cargo_resumeCommand (s : State) : cargo (resumeCommand s) = cargo s := by
  simp [resumeCommand]

@[simp] theorem cargo_readbackOwn (s : State) : cargo (readbackOwn s) = cargo s := by
  unfold readbackOwn; dsimp only; (repeat' split) <;> simp [to_cargo]

@[simp] theorem cargo_readbackCommand (s : State) : cargo (readbackCommand s) = cargo s := by
  simp [readbackCommand]

@[simp] theorem cargo_recoverOwn (s : State) : cargo (recoverOwn s) = cargo s := by
  unfold recoverOwn; split <;> simp

@[simp] theorem cargo_recoverCommand (s : State) : cargo (recoverCommand s) = cargo s := by
  simp [recoverCommand]

@[simp] theorem cargo_badCodeCommand (s : State) (code : BitVec 4) : cargo (badCodeCommand code s) = cargo s := by
  simp [badCodeCommand]

@[simp] theorem cargo_badFrame (s : State) : cargo (badFrame s) = cargo s := by
  simp [badFrame]

@[simp] theorem cargo_forceFlags (s : State) (v : Half) : cargo (forceFlags v s) = cargo s := by
  have same : cover (forceFlags v s).events = cover s.events := cover_or _ _
  simp only [cargo, ledger, same]
  rfl

end Sys2Proof.Machine
end

section
/-! PROOFS. Staging within its bounds (R45 to R47): what a record that enters, a lost write and a merge make of it. -/

namespace Sys2Proof.Machine

/-- The open DATA or GAP record is the tail of staging (R45). -/
def tailOpen (s : State) : Prop :=
  (s.capture.openRec = none ∧ s.capture.openGap = none) ∨
    (∃ o q e f, s.capture.openRec = some o ∧ s.capture.openGap = none ∧ s.staging.queue = q ++ [e] ∧
      e.record.body = .data f ∧ f.length = o.length) ∨
    (∃ o q e f, s.capture.openRec = none ∧ s.capture.openGap = some o ∧ s.staging.queue = q ++ [e] ∧
      e.record.body = .gap f)

theorem stagingOk_iff (s : State) :
    stagingOk s = true ↔
      occupiedBytes s ≤ 65496 ∧ s.staging.queue.length ≤ 1023 ∧
        (s.capture.openGap = none → occupiedBytes s ≤ 65472 ∧ s.staging.queue.length ≤ 1022) ∧ tailOpen s := by
  have tail : ∀ b : Body, (s.staging.queue.getLast?.map fun e => e.record.body) = some b ↔
      ∃ q e, s.staging.queue = q ++ [e] ∧ e.record.body = b := by
    intro b
    rw [Option.map_eq_some_iff]
    constructor
    · rintro ⟨e, he, hb⟩
      obtain ⟨q, hq⟩ := List.getLast?_eq_some_iff.1 he
      exact ⟨q, e, hq, hb⟩
    · rintro ⟨q, e, hq, hb⟩
      exact ⟨e, by rw [hq, List.getLast?_concat], hb⟩
  unfold stagingOk
  rw [Bool.and_eq_true]
  refine (and_congr_right' (c := tailOpen s) ?_).trans ?_
  · unfold tailOpen
    constructor
    · intro h
      split at h
      · exact .inl ⟨‹_›, ‹_›⟩
      · rename_i o f ho hg hb
        obtain ⟨q, e, hq, he⟩ := (tail _).1 hb
        exact .inr (.inl ⟨o, q, e, f, ho, hg, hq, he, by simpa using h⟩)
      · rename_i o f ho hg hb
        obtain ⟨q, e, hq, he⟩ := (tail _).1 hb
        exact .inr (.inr ⟨o, q, e, f, ho, hg, hq, he⟩)
      · cases h
    · rintro (⟨h1, h2⟩ | ⟨o, q, e, f, h1, h2, hq, he, hl⟩ | ⟨o, q, e, f, h1, h2, hq, he⟩)
      · rw [h1, h2]
      · rw [h1, h2, (tail (.data f)).2 ⟨q, e, hq, he⟩]; simpa using hl
      · rw [h1, h2, (tail (.gap f)).2 ⟨q, e, hq, he⟩]
  · cases s.capture.openGap <;> simp <;> tauto

/-- Staging's bounds are read from its queue and from what is open. -/
theorem stagingOk_congr {s t : State} (hq : t.staging.queue = s.staging.queue) (hr : t.capture.openRec = s.capture.openRec)
    (hg : t.capture.openGap = s.capture.openGap) : stagingOk t = stagingOk s := by
  unfold stagingOk occupiedBytes
  rw [hq, hr, hg]

/-- The bytes of a queue with a record more. -/
theorem queueBytes_concat (q : List Staged) (e : Staged) : queueBytes (q ++ [e]) = queueBytes q + stagedBytes e := by
  simp [queueBytes]

/-- A record that enters with its room keeps the bounds, whatever becomes open with it at the tail (R47). -/
theorem stagingOk_of_room {b : Body} {s t : State} (room : roomForRecord (bodySize b) s = true)
    (hq : t.staging.queue = s.staging.queue ++ [⟨⟨s.capture.seqCounter, b⟩, 0⟩]) (ho : tailOpen t) : stagingOk t = true := by
  obtain ⟨bytes, slots⟩ := (roomForRecord_iff _ _).1 room
  have occupied : occupiedBytes t = occupiedBytes s + bodySize b := by
    rw [occupiedBytes, hq, queueBytes_concat]; rfl
  have length : t.staging.queue.length = s.staging.queue.length + 1 := by rw [hq]; simp
  unfold freeBytes at bytes
  unfold freeSlots at slots
  rw [stagingOk_iff, occupied, length]
  exact ⟨by omega, by omega, fun _ => by omega, ho⟩

theorem enterMark_staged (tag : Half) (src : Source) (fenced final : Bool) {s : State}
    (room : roomForRecord markSize s = true) : stagingOk (enterMark tag src fenced final s) = true := by
  rw [enterMark_eq]
  exact stagingOk_of_room (b := .mark ⟨s.capture.epochCounter, tag, src, fenced, final⟩) room rfl (.inl ⟨rfl, rfl⟩)

theorem enterData_staged (w : WriteTxn) (r : Fin 16) (f : DataFields) {s : State}
    (room : roomForRecord (dataSize f) s = true) : stagingOk (enterData w r f s) = true := by
  rw [enterData_eq]
  refine stagingOk_of_room (b := .data f) room rfl ?_
  by_cases h : (f.mask.isNone && s.regions[r].coalesce) = true
  · exact .inr (.inl ⟨_, _, _, f, if_pos h, rfl, rfl, rfl, rfl⟩)
  · exact .inl ⟨if_neg h, rfl⟩

/-- A first lost write creates the open GAP record at the tail (R52). -/
theorem accountLost_new (w : WriteTxn) (label : Byte) {s : State} (h : s.capture.openGap = none) :
    (accountLost w label s).staging.queue = s.staging.queue ++ [⟨⟨s.capture.seqCounter, .gap (newGap w label)⟩, 0⟩] ∧
      (accountLost w label s).capture.openRec = none ∧
      (accountLost w label s).capture.openGap = some ⟨s.capture.seqCounter, newGap w label⟩ := by
  simp [accountLost, h, enterRecord]

/-- A later one extends it in place (R53). -/
theorem accountLost_open (w : WriteTxn) (label : Byte) {s : State} {o : OpenGap} (h : s.capture.openGap = some o) :
    (accountLost w label s).staging.queue =
        updateLast (fun e => { e with record := ⟨o.seq, .gap (extendGap w label o.fields)⟩ }) s.staging.queue ∧
      (accountLost w label s).capture.openRec = s.capture.openRec ∧
      (accountLost w label s).capture.openGap = some ⟨o.seq, extendGap w label o.fields⟩ := by
  simp [accountLost, h]

/-- A lost write keeps the bounds without any room: a new GAP record uses what is kept for it, and an open one keeps its size
(R47, R52, R53). -/
theorem accountLost_staged (w : WriteTxn) (label : Byte) {s : State} (ok : stagingOk s = true) :
    stagingOk (accountLost w label s) = true := by
  obtain ⟨bytes, slots, noGap, tail⟩ := (stagingOk_iff s).1 ok
  rw [stagingOk_iff, occupiedBytes]
  cases hg : s.capture.openGap with
  | none =>
    obtain ⟨bytes', slots'⟩ := noGap hg
    obtain ⟨queue, recs, gap⟩ := accountLost_new w label hg
    have size : stagedBytes ⟨⟨s.capture.seqCounter, .gap (newGap w label)⟩, 0⟩ = 24 := rfl
    rw [queue, queueBytes_concat, size, List.length_append, List.length_singleton]
    rw [occupiedBytes] at bytes'
    refine ⟨by omega, by omega, fun h => ?_, .inr (.inr ⟨_, _, _, _, recs, gap, queue, rfl⟩)⟩
    rw [gap] at h
    cases h
  | some o =>
    obtain ⟨queue, recs, gap⟩ := accountLost_open w label hg
    rcases tail with ⟨-, h⟩ | ⟨_, _, _, _, -, h, -, -⟩ | ⟨o', q, e, f, hr, -, hq, he⟩
    · rw [hg] at h; cases h
    · rw [hg] at h; cases h
    · have same : stagedBytes { e with record := ⟨o.seq, .gap (extendGap w label o.fields)⟩ } = stagedBytes e := by
        simp only [stagedBytes, recordSize, he, bodySize]
      rw [updateLast_eq, hq, List.dropLast_concat, List.getLast?_concat, Option.map_some, Option.toList_some] at queue
      rw [occupiedBytes, hq, queueBytes_concat] at bytes
      rw [hq, List.length_append] at slots
      rw [queue, queueBytes_concat, same, List.length_append]
      refine ⟨bytes, slots, fun h => ?_, .inr (.inr ⟨_, _, _, _, recs.trans hr, gap, queue, rfl⟩)⟩
      rw [gap] at h
      cases h

/-- A merge grows the tail within its room (R40, R47). -/
theorem mergeWrite_staged {o : OpenRec} {w : WriteTxn} {s : State} (hopen : s.capture.openRec = some o)
    (room : roomForGrowth (mergeGrowth o w) s = true) (ok : stagingOk s = true) : stagingOk (mergeWrite o w s) = true := by
  obtain ⟨bytes, slots, noGap, tail⟩ := (stagingOk_iff s).1 ok
  rcases tail with ⟨h, -⟩ | ⟨o', q, e, f, ho, hg, hq, he, hl⟩ | ⟨_, _, _, _, h, -⟩
  · rw [hopen] at h; cases h
  · rw [hopen] at ho
    obtain rfl : o = o' := by simpa using ho
    obtain ⟨bytes', slots'⟩ := noGap hg
    have queue : (mergeWrite o w s).staging.queue =
        q ++ [{ e with record := ⟨e.record.seq, .data (mergeFields w f)⟩ }] := by
      unfold mergeWrite
      split <;> simp [updateLast_eq, hq, mergeBody, he]
    have opened : (mergeWrite o w s).capture.openRec = some { o with length := o.length + writeLength w } ∧
        (mergeWrite o w s).capture.openGap = none := by
      unfold mergeWrite
      split <;> simp [hg]
    have grown : stagedBytes { e with record := ⟨e.record.seq, .data (mergeFields w f)⟩ } ≤
        stagedBytes e + mergeGrowth o w := by
      simp only [stagedBytes, recordSize, bodySize, he, dataSize, mergeFields, mergeGrowth, hl]
      omega
    have roomBytes : mergeGrowth o w + 64 ≤ 65536 - occupiedBytes s := of_decide_eq_true room
    have total : occupiedBytes (mergeWrite o w s) ≤ occupiedBytes s + mergeGrowth o w := by
      simp only [occupiedBytes, queue, hq, queueBytes_concat]
      omega
    have length : (mergeWrite o w s).staging.queue.length = s.staging.queue.length := by rw [queue, hq]; simp
    rw [stagingOk_iff, length]
    exact ⟨by omega, slots, fun _ => ⟨by omega, slots'⟩,
      .inr (.inl ⟨_, _, _, _, opened.1, opened.2, queue, rfl, by simp [mergeFields, hl]⟩)⟩
  · rw [hopen] at h; cases h

end Sys2Proof.Machine
end

section
/-! PROOFS. What the path of a write keeps: the order of what passes (R1, R2), the write counts (R18), the bounds of the tracking
entries and pending VOIDs (R19, R22), of the Marker List (R77) and of staging (R45 to R47). `Onward s t` says that all of them
pass from `s` to `t`, `Carried s t` that the rest of the Bridge stays with them; each operation on the path is shown to carry
once, a write in hand standing in the slot. -/

namespace Sys2Proof.Machine

/-! ## The rest of the Bridge -/

/-- What the path of a write leaves alone: window, link, space, journal, Framer, and the flags that may come to be set. -/
structure Course where
  window  : Vector Slot 8
  link    : Link
  space   : Space
  journal : Journal
  framer  : Framer
  cover   : Half

/-- The course of a state. -/
def course (s : State) : Course := ⟨s.window, s.link, s.space, s.journal, s.framer, cover s.events⟩

/-- Every field of the view, read through the view. -/
theorem to_course (s : State) :
    s.window = (course s).window ∧ s.link = (course s).link ∧ s.space = (course s).space ∧
      s.journal = (course s).journal ∧ s.framer = (course s).framer ∧ cover s.events = (course s).cover :=
  ⟨rfl, rfl, rfl, rfl, rfl, rfl⟩

/-- The view of a state given by its fields. -/
@[simp] theorem course_mk (pornLow mgmtIgnore held regions triggers extents words argWord rtq capture staging framer window
    markers space link buffer journal events counters ports pending) :
    course (State.mk pornLow mgmtIgnore held regions triggers extents words argWord rtq capture staging framer window
      markers space link buffer journal events counters ports pending) =
      ⟨window, link, space, journal, framer, cover events⟩ := rfl

@[simp] theorem course_raiseIf (s : State) (c : Bool) (e : Event) : course (raiseIf c e s) = course s := by
  simp only [course, cover_raiseIf]
  rfl

@[simp] theorem course_raise (s : State) (e : Event) : course (raise e s) = course s := course_raiseIf s true e

@[simp] theorem course_bump (s : State) (c : Counter) (n : Nat) : course (bump c n s) = course s := by
  simp [bump, to_course]

@[simp] theorem course_compareRise (s : State) : course (compareRise s) = course s := by
  simp [compareRise, to_course]

@[simp] theorem course_enterRecord (s : State) (b : Body) : course (enterRecord b s) = course s := by
  simp [enterRecord, to_course]

@[simp] theorem course_countCaptured (s : State) (w : WriteTxn) : course (countCaptured w s) = course s := by
  simp [countCaptured]

@[simp] theorem course_enterData (s : State) (w : WriteTxn) (r : Fin 16) (f : DataFields) : course (enterData w r f s) = course s := by
  simp [enterData, to_course]

@[simp] theorem course_forwardWrite (s : State) (w : WriteTxn) : course (forwardWrite w s) = course s := by
  simp [forwardWrite, to_course]

@[simp] theorem course_finishWrite (s : State) (w : WriteTxn) : course (finishWrite w s) = course s := by
  simp [finishWrite, to_course]

@[simp] theorem course_holdWrite (s : State) (w : WriteTxn) (h : Hold) (limit : Nat) : course (holdWrite w h limit s) = course s := by
  simp [holdWrite, to_course]

@[simp] theorem course_takeEntry (s : State) (w : WriteTxn) (seq : Word) (ended : Bool) : course (takeEntry w seq ended s) = course s := by
  simp [takeEntry, to_course]

@[simp] theorem course_accountLost (s : State) (w : WriteTxn) (label : Byte) : course (accountLost w label s) = course s := by
  unfold accountLost; dsimp only; (repeat' split) <;> simp [to_course]

@[simp] theorem course_enterMark (s : State) (tag : Half) (src : Source) (fenced final : Bool) : course (enterMark tag src fenced final s) = course s := by
  simp [enterMark, to_course]

@[simp] theorem course_loseMark (s : State) : course (loseMark s) = course s := by
  simp [loseMark]

@[simp] theorem course_mergeWrite (s : State) (o : OpenRec) (w : WriteTxn) : course (mergeWrite o w s) = course s := by
  unfold mergeWrite; split <;> simp [to_course]

@[simp] theorem course_lateVoid (s : State) : course (lateVoid s) = course s := by
  simp [lateVoid]

/-! ## What is kept -/

/-- By how much the forward and the answer count differ from what passed (R18). -/
def surplus (s : State) : Word × Word :=
  (s.rtq.forwardCount - BitVec.ofNat 32 (writesForwarded s), s.rtq.answerCount - BitVec.ofNat 32 (writesAnswered s))

/-- Order, counts and bounds pass from one state to another. -/
structure Onward (s t : State) : Prop where
  order    : t.ports.downstream ++ heldTxn t = s.ports.downstream ++ heldTxn s
  surplus  : surplus t = surplus s
  tracking : s.rtq.tracking.length ≤ 32 → t.rtq.tracking.length ≤ 32
  voids    : s.rtq.voids.length ≤ 4 → t.rtq.voids.length ≤ 4
  entries  : s.markers.entries.length ≤ 16 → t.markers.entries.length ≤ 16
  staged   : stagingOk s = true → stagingOk t = true

/-- They do, and the rest of the Bridge stays. -/
structure Carried (s t : State) : Prop extends Onward s t where
  course : course t = course s

theorem Onward.refl (s : State) : Onward s s := ⟨rfl, rfl, id, id, id, id⟩

theorem Onward.trans {s t u : State} (h : Onward s t) (k : Onward t u) : Onward s u :=
  ⟨k.order.trans h.order, k.surplus.trans h.surplus, k.tracking ∘ h.tracking, k.voids ∘ h.voids, k.entries ∘ h.entries,
    k.staged ∘ h.staged⟩

theorem Carried.refl (s : State) : Carried s s := ⟨.refl s, rfl⟩

theorem Carried.trans {s t u : State} (h : Carried s t) (k : Carried t u) : Carried s u :=
  ⟨h.toOnward.trans k.toOnward, k.course.trans h.course⟩

/-- The counts are read from the path and from what was returned upstream. -/
theorem surplus_congr {s t : State} (settled : settings t = settings s) (p : path t = path s) : surplus t = surplus s := by
  have upstream : t.ports.upstream = s.ports.upstream := congrArg Settings.upstream settled
  have downstream : t.ports.downstream = s.ports.downstream := congrArg Path.downstream p
  have rtq : t.rtq = s.rtq := congrArg Path.rtq p
  simp only [surplus, writesForwarded, writesAnswered, upstream, downstream, rtq]

/-- What leaves the path alone and keeps staging and the Marker List bounded goes onward. -/
theorem onward_of_path {s t : State} (settled : settings t = settings s) (p : path t = path s)
    (entries : s.markers.entries.length ≤ 16 → t.markers.entries.length ≤ 16)
    (staged : stagingOk s = true → stagingOk t = true) : Onward s t := by
  have held : t.held = s.held := congrArg Path.held p
  have downstream : t.ports.downstream = s.ports.downstream := congrArg Path.downstream p
  have rtq : t.rtq = s.rtq := congrArg Path.rtq p
  exact ⟨by simp only [heldTxn, held, downstream], surplus_congr settled p, fun h => by rw [rtq]; exact h,
    fun h => by rw [rtq]; exact h, entries, staged⟩

/-- What leaves the path and the cargo alone goes onward. -/
theorem onward_of_cargo {s t : State} (settled : settings t = settings s) (p : path t = path s) (c : cargo t = cargo s) :
    Onward s t :=
  onward_of_path settled p (fun h => (congrArg Cargo.markers c).trans_le h) fun h =>
    (stagingOk_congr (congrArg Cargo.queue c) (congrArg Cargo.openRec c) (congrArg Cargo.openGap c)).trans h

/-! ## A write in hand -/

/-- The write stands in the slot. -/
def holding (w : WriteTxn) (s : State) : State := { s with held := some ⟨w, .marker 0, none⟩ }

/-- A held write is in hand. -/
theorem carried_holding {s : State} {h : Held} (e : s.held = some h) : Carried s (holding h.write s) :=
  ⟨⟨by simp [holding, heldTxn, e], rfl, id, id, id, id⟩, rfl⟩

/-- What carries and leaves the slot alone carries with a write in hand. -/
theorem Carried.inHand {s t : State} (w : WriteTxn) (h : Carried s t) (held : t.held = s.held) :
    Carried (holding w s) (holding w t) := by
  have same : heldTxn t = heldTxn s := by simp only [heldTxn, held]
  have downstream : t.ports.downstream = s.ports.downstream := by
    have order := h.order
    rw [same] at order
    exact List.append_cancel_right order
  exact ⟨⟨congrArg (· ++ _) downstream, h.surplus, h.tracking, h.voids, h.entries, h.staged⟩, h.course⟩

theorem finishWrite_carried (w : WriteTxn) (s : State) : Carried (holding w s) (finishWrite w s) := by
  refine ⟨⟨by simp [finishWrite, forwardWrite, heldTxn, holding], ?_, fun h => ?_, id, id, id⟩, rfl⟩
  · have forwarded : writesForwarded (finishWrite w s) = writesForwarded s + 1 := by
      simp [writesForwarded, finishWrite, forwardWrite, List.countP_append]
    have count : (finishWrite w s).rtq.forwardCount = s.rtq.forwardCount + 1 := rfl
    rw [surplus, forwarded, count, BitVec.ofNat_add]
    refine congrArg (·, s.rtq.answerCount - BitVec.ofNat 32 (writesAnswered s)) ?_
    exact add_sub_add_right_eq_sub _ _ _
  · simpa [finishWrite, forwardWrite, holding] using h

theorem holdWrite_carried (w : WriteTxn) (h : Hold) (n : Nat) (s : State) : Carried (holding w s) (holdWrite w h n s) :=
  ⟨⟨rfl, rfl, id, id, id, id⟩, rfl⟩

/-! ## What happens beside the write -/

theorem raise_carried (e : Event) (s : State) : Carried s (raise e s) :=
  ⟨onward_of_path (by simp) (by simp) id id, by simp⟩

theorem bump_carried (c : Counter) (n : Nat) (s : State) : Carried s (bump c n s) :=
  ⟨onward_of_path (by simp) (by simp) id id, by simp⟩

theorem loseMark_carried (s : State) : Carried s (loseMark s) := (bump_carried _ _ s).trans (raise_carried _ _)

theorem lateVoid_carried (s : State) : Carried s (lateVoid s) := (bump_carried _ _ s).trans (raise_carried _ _)

theorem accountLost_carried (w : WriteTxn) (label : Byte) (s : State) : Carried s (accountLost w label s) := by
  have entries : (accountLost w label s).markers = s.markers := by
    unfold accountLost
    dsimp only
    split <;> simp
  exact ⟨onward_of_path (by simp) (by simp) (fun h => by rw [entries]; exact h) (accountLost_staged w label), by simp⟩

theorem accountLost_held (w : WriteTxn) (label : Byte) (s : State) : (accountLost w label s).held = s.held :=
  congrArg Path.held (path_accountLost s w label)

theorem mergeWrite_held (o : OpenRec) (w : WriteTxn) (s : State) : (mergeWrite o w s).held = s.held :=
  congrArg Path.held (path_mergeWrite s o w)

theorem enterData_carried (w : WriteTxn) (r : Fin 16) (f : DataFields) {s : State}
    (room : roomForRecord (dataSize f) s = true) : Carried s (enterData w r f s) :=
  ⟨onward_of_path (by simp) (by simp) (fun h => by simpa using h) fun _ => enterData_staged w r f room, by simp⟩

theorem mergeWrite_carried {o : OpenRec} (w : WriteTxn) {s : State} (opened : s.capture.openRec = some o)
    (room : roomForGrowth (mergeGrowth o w) s = true) : Carried s (mergeWrite o w s) := by
  have entries : (mergeWrite o w s).markers = s.markers := by
    unfold mergeWrite
    dsimp only
    split <;> simp
  exact ⟨onward_of_path (by simp) (by simp) (fun h => by rw [entries]; exact h) (mergeWrite_staged opened room), by simp⟩

theorem enterMark_carried (tag : Half) (src : Source) (fenced final : Bool) {s : State}
    (free : listFull s = false) (room : roomForRecord markSize s = true) : Carried s (enterMark tag src fenced final s) := by
  have few : s.markers.entries.length < 16 := by simpa [listFull] using free
  have entries : (enterMark tag src fenced final s).markers.entries.length = s.markers.entries.length + 1 := by
    simp [enterMark]
  exact ⟨onward_of_path (by simp) (by simp) (fun _ => by omega) fun _ => enterMark_staged tag src fenced final room, by simp⟩

theorem takeEntry_carried (w : WriteTxn) (q : Word) (ended : Bool) {s : State} (free : s.rtq.tracking.length < 32) :
    Carried s (takeEntry w q ended s) :=
  ⟨⟨rfl, rfl, fun _ => by simp [takeEntry]; omega, id, id, id⟩, rfl⟩

/-! ## The steps of a write -/

section
variable (w : WriteTxn)

theorem afterMark_carried (i : Fin 4) (epoch : Word) (s : State) : Carried (holding w s) (afterMark w i epoch s) := by
  unfold afterMark
  split
  · exact holdWrite_carried w _ _ s
  · exact finishWrite_carried w s

theorem admitTriggerMark_carried (i : Fin 4) {s : State} (free : listFull s = false)
    (room : roomForRecord markSize s = true) : Carried (holding w s) (admitTriggerMark w i s) :=
  ((enterMark_carried _ _ _ _ free room).inHand w (by simp)).trans (afterMark_carried w i _ _)

theorem beginMarkerWait_carried (r : Option (Fin 16)) (i : Fin 4) (s : State) :
    Carried (holding w s) (beginMarkerWait w r i s) := by
  unfold beginMarkerWait
  split
  · exact ((loseMark_carried s).inHand w (by simp)).trans (finishWrite_carried w _)
  split
  · exact holdWrite_carried w _ _ s
  rename_i free
  split
  · rename_i granted
    rw [Bool.and_eq_true] at granted
    exact admitTriggerMark_carried w i (by simpa using free) granted.2
  · exact holdWrite_carried w _ _ s

theorem afterData_carried (r : Fin 16) (trig : Option (Fin 4)) (s : State) :
    Carried (holding w s) (afterData w r trig s) := by
  cases trig with
  | none => exact finishWrite_carried w s
  | some i => exact beginMarkerWait_carried w _ i s

theorem trackWrite_carried (q : Word) (r : Fin 16) (trig : Option (Fin 4)) (s : State) :
    Carried (holding w s) (trackWrite w q r trig s) := by
  unfold trackWrite
  split
  · rename_i free
    exact ((takeEntry_carried w q false free).inHand w rfl).trans (afterData_carried w r trig _)
  · exact holdWrite_carried w _ _ s

theorem offerData_carried (r : Fin 16) (trig : Option (Fin 4)) (s : State) :
    Carried (holding w s) (offerData w r trig s) := by
  unfold offerData
  dsimp only
  split
  · rename_i granted
    rw [Bool.and_eq_true] at granted
    exact ((enterData_carried w r _ granted.2).inHand w (by simp)).trans (trackWrite_carried w _ r trig _)
  · split
    · exact holdWrite_carried w _ _ s
    · exact ((accountLost_carried w _ s).inHand w (accountLost_held w _ s)).trans (afterData_carried w r trig _)

/-- A merge is granted only with its room (R39, R40). -/
theorem room_of_canMerge {o : OpenRec} {r : Fin 16} {s : State} (h : canMerge o w r s = true) :
    roomForGrowth (mergeGrowth o w) s = true := by
  unfold canMerge at h
  rw [Bool.and_eq_true] at h
  exact h.2

theorem captureWrite_carried (r : Fin 16) (trig : Option (Fin 4)) (s : State) :
    Carried (holding w s) (captureWrite w r trig s) := by
  unfold captureWrite
  split
  · rename_i o opened
    split
    · rename_i merges
      exact ((mergeWrite_carried w opened (room_of_canMerge w merges)).inHand w (mergeWrite_held o w s)).trans
        (trackWrite_carried w _ r trig _)
    · exact offerData_carried w r trig s
  · exact offerData_carried w r trig s

/-- With the slot empty, a write that is forwarded was in hand. -/
theorem forwardWrite_carried {s : State} (empty : s.held = none) : Carried (holding w s) (forwardWrite w s) := by
  have same : forwardWrite w s = finishWrite w s := by rw [finishWrite, ← empty]
  rw [same]
  exact finishWrite_carried w s

theorem classifyWrite_carried {s : State} (empty : s.held = none) : Carried (holding w s) (classifyWrite w s) := by
  unfold classifyWrite
  split
  · exact ((bump_carried _ _ s).inHand w (by simp)).trans (forwardWrite_carried w (by simpa using empty))
  split
  · split
    · exact captureWrite_carried w _ _ s
    · exact beginMarkerWait_carried w _ _ s
    · exact forwardWrite_carried w empty
  · exact forwardWrite_carried w empty

end

/-! ## The held write -/

section
variable (s : State)

theorem forwardHeld_carried : Carried s (forwardHeld s) := by
  unfold forwardHeld
  split
  · exact .refl s
  · exact (carried_holding ‹_›).trans (finishWrite_carried _ s)

theorem settleHeldForStop_carried : Carried s (settleHeldForStop s) := by
  unfold settleHeldForStop
  split
  · exact .refl s
  · rename_i h held
    have taken := carried_holding held
    split
    · exact taken.trans (((accountLost_carried _ _ s).inHand _ (accountLost_held _ _ s)).trans (finishWrite_carried _ _))
    · exact ⟨⟨by simp [heldTxn, held], rfl, id, id, id, id⟩, rfl⟩
    · exact taken.trans (((loseMark_carried s).inHand _ (by simp)).trans (finishWrite_carried _ _))
    · exact taken.trans (((loseMark_carried s).inHand _ (by simp)).trans (finishWrite_carried _ _))
    · exact .refl s

/-- What is lost beside a write that is kept for TRACKING across STOP. -/
theorem stoppedMark_carried (trig : Option (Fin 4)) : Carried s (if trig.isSome = true then loseMark s else s) := by
  split
  · exact loseMark_carried s
  · exact .refl s

theorem errorResponse_carried (e : TrackEntry) : Carried s (errorResponse e s) := by
  unfold errorResponse
  split
  · split
    · rename_i free
      exact ⟨⟨rfl, rfl, id, fun _ => by simp; omega, id, id⟩, rfl⟩
    · exact lateVoid_carried s
  · exact lateVoid_carried s

/-- An ERROR response leaves the tracking entries to the match. -/
theorem errorResponse_tracking (e : TrackEntry) : (errorResponse e s).rtq.tracking = s.rtq.tracking := by
  unfold errorResponse
  split
  · split <;> simp
  · simp

end

/-- An entry is taken where one was freed. -/
theorem takeEntry_freed {s u : State} (w : WriteTxn) (q : Word) (ended : Bool) (h : Carried s u)
    (freed : u.rtq.tracking.length < s.rtq.tracking.length) : Carried s (takeEntry w q ended u) :=
  ⟨⟨h.order, h.surplus, fun k => by simp [takeEntry]; omega, h.voids, h.entries, h.staged⟩, h.course⟩

/-- A freed entry goes to the write held for TRACKING (R14, R17). -/
theorem releaseTracking_carried {s u : State} (h : Carried s u)
    (freed : u.rtq.tracking.length < s.rtq.tracking.length) : Carried s (releaseTracking u) := by
  unfold releaseTracking
  split
  · rename_i x held
    split
    · rename_i q r trig stopped kept
      split
      · refine (takeEntry_freed x.write q true h freed).trans ((carried_holding (by simpa using held)).trans ?_)
        refine ((stoppedMark_carried _ trig).inHand _ ?_).trans (finishWrite_carried _ _)
        split <;> simp
      · exact h.trans ((carried_holding held).trans (trackWrite_carried x.write q r trig { u with held := none }))
    all_goals exact h
  · exact h

theorem matchResponse_carried (a : WriteAnswer) (s : State) : Carried s (matchResponse a s) := by
  unfold matchResponse
  split
  · rename_i e rest entries
    split
    · have consumed : Carried s { s with rtq.tracking := rest } :=
        ⟨⟨rfl, rfl, fun k => by simp [entries] at k ⊢; omega, id, id, id⟩, rfl⟩
      have freed : rest.length < s.rtq.tracking.length := by simp [entries]
      cases a with
      | okay => exact releaseTracking_carried consumed freed
      | error =>
        refine releaseTracking_carried (consumed.trans (errorResponse_carried _ e)) ?_
        rw [errorResponse_tracking]
        exact freed
    · exact .refl s
  · exact .refl s

/-! ## The limits and the arbiter -/

section
variable (s : State)

theorem stallExpires_carried : Carried s (stallExpires s) := by
  unfold stallExpires
  split
  · rename_i w r trig f tm held
    refine (carried_holding held).trans (.trans ?_ (afterData_carried w r trig _))
    have empty : Carried { s with held := none }
        (raise .stallTimeout (accountLost w s.regions[r].label { s with held := none })) :=
      (accountLost_carried w _ _).trans (raise_carried _ _)
    exact empty.inHand w ((congrArg Path.held (path_raise _ .stallTimeout)).trans (accountLost_held w _ _))
  · exact .refl s

theorem markerWaitExpires_carried : Carried s (markerWaitExpires s) := by
  unfold markerWaitExpires
  split
  · exact (carried_holding ‹_›).trans (((loseMark_carried s).inHand _ (by simp)).trans (finishWrite_carried _ _))
  · exact (carried_holding ‹_›).trans (((loseMark_carried s).inHand _ (by simp)).trans (finishWrite_carried _ _))
  · exact .refl s

theorem fenceExpires_carried : Carried s (fenceExpires s) := by
  unfold fenceExpires
  split
  · exact (carried_holding ‹_›).trans (((raise_carried _ s).inHand _ (by simp)).trans (finishWrite_carried _ _))
  · exact .refl s

theorem admitVoid_carried : Carried s (admitVoid s) := by
  unfold admitVoid
  split
  · exact .refl s
  · rename_i v rest waiting
    split
    · rename_i room
      have freed : Carried s { s with rtq.voids := rest } :=
        ⟨⟨rfl, rfl, id, fun k => by simp [waiting] at k ⊢; omega, id, id⟩, rfl⟩
      have entered : Carried { s with rtq.voids := rest } (enterRecord (.void v) { s with rtq.voids := rest }) :=
        ⟨onward_of_path (by simp) (by simp) (fun h => by simpa using h)
          fun _ => stagingOk_of_room (b := .void v) room (by simp [enterRecord]) (.inl (by simp [enterRecord])), by simp⟩
      exact (freed.trans entered).trans ((bump_carried _ _ _).trans (raise_carried _ _))
    · exact .refl s

theorem admitData_carried : Carried s (admitData s) := by
  unfold admitData
  split
  · rename_i w r trig f tm held
    split
    · rename_i granted
      rw [Bool.and_eq_true] at granted
      have entered : Carried { s with held := none } (enterData w r f { s with held := none }) :=
        enterData_carried w r f granted.2
      exact (carried_holding held).trans ((entered.inHand w (by simp)).trans (trackWrite_carried w _ r trig _))
    · exact .refl s
  · exact .refl s

theorem admitMark_carried : Carried s (admitMark s) := by
  unfold admitMark
  split
  · rename_i w i tm held
    split
    · rename_i granted
      simp only [Bool.and_eq_true, Bool.not_eq_true'] at granted
      obtain ⟨⟨-, room⟩, free⟩ := granted
      exact (carried_holding held).trans (admitTriggerMark_carried w i free room)
    · exact .refl s
  · exact .refl s

theorem admitFinal_carried : Carried s (admitFinal s) := by
  unfold admitFinal
  split
  · rename_i granted
    simp only [Bool.and_eq_true, Bool.not_eq_true'] at granted
    obtain ⟨⟨⟨⟨-, free⟩, -⟩, -⟩, room⟩ := granted
    have offered : Carried s { s with staging.finalMark := .entered } := ⟨onward_of_path rfl rfl id id, rfl⟩
    exact offered.trans (enterMark_carried 0 .command false true free room)
  · exact .refl s

/-- An at-once MARK claim is granted only with its room (R47, R48). -/
theorem room_of_markGranted (h : markGranted s = true) : roomForRecord markSize s = true := by
  unfold markGranted at h
  rw [Bool.and_eq_true] at h
  exact h.2

theorem pinRequest_carried : Carried s (pinRequest s) := by
  unfold pinRequest
  split
  · exact .refl s
  split
  · exact loseMark_carried s
  · rename_i granted
    simp only [Bool.or_eq_true, Bool.not_eq_true', not_or, Bool.not_eq_true, Bool.not_eq_false] at granted
    obtain ⟨⟨-, free⟩, room⟩ := granted
    exact enterMark_carried 0 .pin false false free (room_of_markGranted s room)

/-- What departing markers do to the held write. -/
theorem releaseHeld_carried (gone : List Marker) : Carried s (releaseHeld gone s) := by
  unfold releaseHeld
  split
  · exact .refl s
  · rename_i h held
    split
    · exact (carried_holding held).trans (finishWrite_carried _ s)
    · split
      · split
        · exact .refl s
        · exact ⟨⟨by simp [heldTxn, held], rfl, id, id, id, id⟩, rfl⟩
      all_goals exact .refl s

end


end Sys2Proof.Machine
end

section
/-! PROOFS. What the Framer keeps: the path of a write and the bounds of staging, the slots in flight, at most one block that
assembles (R71), and the link, the space and the journal. -/

namespace Sys2Proof.Machine

/-! ## What is kept -/

/-- What the Framer leaves alone: link, space, journal, and the flags that may come to be set. -/
def hull (s : State) : Link × Space × Journal × Half := (s.link, s.space, s.journal, cover s.events)

/-- How many slots are ASSEMBLING. -/
def drafting (s : State) : Nat := (List.finRange 8).countP fun i => (slotDraft s.window[i]).isSome

theorem oneAssembling_iff (s : State) : oneAssembling s = true ↔ drafting s ≤ 1 := by simp [oneAssembling, drafting]

/-- What a copy or a seal keeps. -/
structure Framed (s t : State) : Prop extends Onward s t where
  hull     : hull t = hull s
  aloft    : t.window.map slotInFlight = s.window.map slotInFlight
  drafting : drafting s ≤ 1 → drafting t ≤ 1

theorem Framed.refl (s : State) : Framed s s := ⟨.refl s, rfl, rfl, id⟩

theorem Framed.trans {s t u : State} (h : Framed s t) (k : Framed t u) : Framed s u :=
  ⟨h.toOnward.trans k.toOnward, k.hull.trans h.hull, k.aloft.trans h.aloft, k.drafting ∘ h.drafting⟩

/-! ## A slot is replaced -/

/-- A slot that does not come to assemble adds no assembling slot. -/
theorem drafting_setSlot {s : State} {i : Fin 8} {x : Slot}
    (h : (slotDraft x).isSome = true → (slotDraft s.window[i]).isSome = true) : drafting (setSlot i x s) ≤ drafting s := by
  refine List.countP_mono_left fun j _ assembles => ?_
  by_cases e : i = j
  · subst e
    exact h (by simpa [setSlot] using assembles)
  · have other : (i : Nat) ≠ j := fun k => e (Fin.ext k)
    simpa [setSlot, Vector.getElem_set, other] using assembles

/-- A slot replaced by one that is no more in flight and no more assembling than it was. -/
theorem setSlot_framed {s : State} {i : Fin 8} {x : Slot} (air : slotInFlight x = slotInFlight s.window[i])
    (draft : (slotDraft x).isSome = true → (slotDraft s.window[i]).isSome = true) : Framed s (setSlot i x s) :=
  ⟨onward_of_path (by simp) (by simp) id id, rfl, map_set_same air, fun h => (drafting_setSlot draft).trans h⟩

theorem sealBlock_framed {s : State} {i : Fin 8} {d : Draft} (h : s.window[i] = .assembling d) (d' : Draft)
    (cause : SealCause) : Framed s (sealBlock i d' cause s) := by
  have air : (sealBlock i d' cause s).window.map slotInFlight = s.window.map slotInFlight :=
    map_set_same (by rw [h]; rfl)
  have fewer : drafting (sealBlock i d' cause s) ≤ drafting s :=
    drafting_setSlot (s := s) (i := i) (x := .sealed ⟨d', s.framer.framingEpoch, cause⟩) fun k => nomatch k
  exact ⟨onward_of_path (by simp) (by simp) id id, rfl, air, fun k => fewer.trans k⟩

theorem placeMark_framed (recSeq serial : Word) (s : State) : Framed s (placeMark recSeq serial s) :=
  ⟨onward_of_path (by simp) (by simp) (fun h => by simpa [placeMark] using h) id, rfl, rfl, id⟩

/-! ## Staging falls -/

/-- What stays in staging as its closed head goes out, in part or whole. -/
theorem stagingOk_copied {s t : State} {e : Staged} {rest : List Staged} {n : Nat} (closed : hasClosed s = true)
    (queue : s.staging.queue = e :: rest)
    (copied : t.staging.queue = rest ∨ t.staging.queue = { e with taken := e.taken + n } :: rest)
    (recs : t.capture.openRec = s.capture.openRec) (gap : t.capture.openGap = s.capture.openGap)
    (ok : stagingOk s = true) : stagingOk t = true := by
  obtain ⟨bytes, slots, noGap, tail⟩ := (stagingOk_iff s).1 ok
  have fall : occupiedBytes t ≤ occupiedBytes s ∧ t.staging.queue.length ≤ s.staging.queue.length := by
    unfold occupiedBytes
    rcases copied with copied | copied
    · rw [copied, queue]
      simp [queueBytes]
    · rw [copied, queue]
      simp [queueBytes, stagedBytes]
      omega
  obtain ⟨lighter, shorter⟩ := fall
  refine (stagingOk_iff t).2 ⟨lighter.trans bytes, shorter.trans slots, fun h => ?_, ?_⟩
  · obtain ⟨bytes', slots'⟩ := noGap (gap ▸ h)
    exact ⟨lighter.trans bytes', shorter.trans slots'⟩
  · cases rest with
    | nil =>
      have none : s.capture.openRec = none ∧ s.capture.openGap = none := by simpa [hasClosed, queue] using closed
      exact .inl ⟨recs.trans none.1, gap.trans none.2⟩
    | cons r rest =>
      have keeps {q : List Staged} {last : Staged} (h : s.staging.queue = q ++ [last]) :
          ∃ q', t.staging.queue = q' ++ [last] := by
        rw [queue] at h
        cases q with
        | nil => simp at h
        | cons a q =>
          obtain ⟨-, behind⟩ := List.cons_eq_cons.1 h
          rcases copied with copied | copied
          · exact ⟨q, copied.trans behind⟩
          · exact ⟨_ :: q, copied.trans (congrArg (_ :: ·) behind)⟩
      rcases tail with ⟨h1, h2⟩ | ⟨o, q, last, f, h1, h2, hq, body, length⟩ | ⟨o, q, last, f, h1, h2, hq, body⟩
      · exact .inl ⟨recs.trans h1, gap.trans h2⟩
      · obtain ⟨q', hq'⟩ := keeps hq
        exact .inr (.inl ⟨o, q', last, f, recs.trans h1, gap.trans h2, hq', body, length⟩)
      · obtain ⟨q', hq'⟩ := keeps hq
        exact .inr (.inr ⟨o, q', last, f, recs.trans h1, gap.trans h2, hq', body⟩)

theorem stagingOk_empty {s : State} (queue : s.staging.queue = []) (recs : s.capture.openRec = none)
    (gap : s.capture.openGap = none) : stagingOk s = true := by
  rw [stagingOk_iff, occupiedBytes, queue]
  exact ⟨by simp [queueBytes], by simp, fun _ => ⟨by simp [queueBytes], by simp⟩, .inl ⟨recs, gap⟩⟩

/-! ## Seals and copies -/

/-- The open record taken leaves staging empty, and nothing open. -/
theorem openTaken_framed (s : State) : Framed s (compareFall
    { s with staging.queue := [], capture.openRec := none, capture.openGap := none }) :=
  ⟨onward_of_path rfl rfl id fun _ => stagingOk_empty rfl rfl rfl, rfl, rfl, id⟩

theorem serveDue_framed {s : State} {i : Fin 8} {d : Draft} (h : s.window[i] = .assembling d) :
    Framed s (serveDue i d s) := by
  unfold serveDue
  dsimp only
  generalize (if s.framer.due = .pause then SealCause.pause else SealCause.timer) = cause
  split
  · split
    · exact (openTaken_framed s).trans (sealBlock_framed (by exact h) _ _)
    · exact sealBlock_framed h _ _
  · exact sealBlock_framed h _ _

theorem serveIfDue_framed (s : State) : Framed s (serveIfDue s) := by
  unfold serveIfDue
  split
  · split
    · exact serveDue_framed (window_of_assembling ‹_›)
    · exact .refl s
  · exact .refl s

theorem withCopied_framed {s : State} {e : Staged} {rest : List Staged} (closed : hasClosed s = true)
    (queue : s.staging.queue = e :: rest) (n : Nat) : Framed s (withCopied e rest n s) := by
  refine ⟨onward_of_path rfl rfl id (stagingOk_copied closed queue (n := n) ?_ rfl rfl), rfl, rfl, id⟩
  simp only [withCopied]
  split
  · exact .inl rfl
  · exact .inr rfl

theorem copyFragment_framed {s : State} {i : Fin 8} {d : Draft} (closed : hasClosed s = true)
    (h : s.window[i] = .assembling d) : Framed s (copyFragment i d s) := by
  cases queue : s.staging.queue with
  | nil => simp [hasClosed, queue] at closed
  | cons e rest =>
    rw [copyFragment_cons i d queue rfl]
    generalize min (stagedBytes e) (payloadRoom d s) = n
    have copied := withCopied_framed closed queue n
    split
    · exact copied.trans ((placeMark_framed _ _ _).trans (sealBlock_framed (by exact h) _ _))
    split
    · exact copied.trans (sealBlock_framed (by exact h) _ _)
    · refine copied.trans (.trans (setSlot_framed ?_ fun _ => ?_) (serveIfDue_framed _))
      · exact (congrArg slotInFlight h).symm
      · exact (congrArg (fun x => (slotDraft x).isSome) h).trans rfl

/-! ## The Framer -/

/-- With no slot ASSEMBLING none is counted. -/
theorem drafting_none {s : State} (h : assembling s = none) : drafting s = 0 := by
  rw [drafting, List.countP_eq_zero]
  intro i member
  have none := List.findSome?_eq_none_iff.1 h i member
  simpa using none

theorem openBlock_framed {s : State} {i : Fin 8} (idle : assembling s = none) (free : s.window[i] = .free) :
    Framed s (openBlock i s) := by
  refine ⟨onward_of_path (by simp) (by simp) id id, rfl, map_set_same (by rw [free]; rfl), fun _ => ?_⟩
  have none : ∀ j : Fin 8, (slotDraft s.window[j]).isSome = false := fun j => by
    have := List.countP_eq_zero.1 (drafting_none idle) j (List.mem_finRange j)
    simpa using this
  have alone : drafting (openBlock i s) ≤ (List.finRange 8).countP fun j => j == i := by
    refine List.countP_mono_left fun j _ assembles => ?_
    by_contra e
    have other : (i : Nat) ≠ j := fun k => e (by simp [Fin.ext_iff, k])
    simp [openBlock, setSlot, other] at assembles
    have := none j
    simp_all
  exact alone.trans (List.nodup_iff_count_le_one.1 (List.nodup_finRange 8) i)

theorem framerStep_framed (s : State) : Framed s (framerStep s) := by
  unfold framerStep
  split
  · rename_i closed
    split
    · exact copyFragment_framed closed (window_of_assembling ‹_›)
    · rename_i idle
      split
      · rename_i i free
        have opened := openBlock_framed idle (window_of_lowestFree free)
        dsimp only
        split
        · exact opened.trans (copyFragment_framed (by exact closed) (window_of_assembling ‹_›))
        · exact opened
      · exact .refl s
  · exact .refl s

/-- The Framer's own words are no part of it. -/
theorem framer_framed (s : State) (f : Framer) : Framed s { s with framer := f } :=
  ⟨onward_of_path rfl rfl id id, rfl, rfl, id⟩

theorem sealTimerRunsOut_framed (s : State) : Framed s (sealTimerRunsOut s) :=
  (framer_framed s _).trans (serveIfDue_framed _)

theorem requestPauseSeal_framed (s : State) : Framed s (requestPauseSeal s) := by
  unfold requestPauseSeal
  split
  · exact (framer_framed s _).trans (serveIfDue_framed _)
  · exact .refl s

end Sys2Proof.Machine
end

section
/-! PROOFS. Blocks on their way (R71, R101, R143): a link with no block out and no slot IN_FLIGHT is grounded; its operations keep
it so, but for the start of a block, which finds the link in a sending state and space free. -/

namespace Sys2Proof.Machine

/-! ## Slots in flight -/

theorem slotsInFlight_congr {s t : State} (h : t.window.map slotInFlight = s.window.map slotInFlight) :
    slotsInFlight t = slotsInFlight s := by
  have read (u : State) (i : Fin 8) : slotInFlight u.window[i] = (u.window.map slotInFlight)[i] := by simp
  simp only [slotsInFlight, read, h]

/-- Places of two kinds that exclude each other are among the places of both. -/
theorem countP_add_le {α : Type} {p q r : α → Bool} (hp : ∀ a, p a = true → r a = true) (hq : ∀ a, q a = true → r a = true)
    (apart : ∀ a, p a = true → q a = false) (l : List α) : l.countP p + l.countP q ≤ l.countP r := by
  induction l with
  | nil => simp
  | cons a l ih =>
    simp only [List.countP_cons]
    have one : (if p a = true then 1 else 0) + (if q a = true then 1 else 0) ≤ if r a = true then 1 else 0 := by
      have h1 := hp a
      have h2 := hq a
      have h3 := apart a
      cases hpa : p a <;> cases hqa : q a <;> simp_all
    omega

/-- The only slot in flight leaves none when it is replaced by one that is not. -/
theorem slotsInFlight_set {s : State} {i : Fin 8} {b : Block} {x : Slot} (h : inFlight s = some (i, b))
    (down : slotInFlight x = none) (one : slotsInFlight s ≤ 1) : slotsInFlight (setSlot i x s) = 0 := by
  have parts := countP_add_le (p := fun j => (slotInFlight (setSlot i x s).window[j]).isSome) (q := fun j => i == j)
    (r := fun j => (slotInFlight s.window[j]).isSome) ?_ ?_ ?_ (List.finRange 8)
  · have own : 1 ≤ (List.finRange 8).countP fun j => i == j :=
      List.countP_pos_iff.2 ⟨i, List.mem_finRange i, by simp⟩
    have all : slotsInFlight (setSlot i x s) + (List.finRange 8).countP (fun j => i == j) ≤ slotsInFlight s := parts
    omega
  · intro j flies
    by_cases e : i = j
    · subst e
      simp [setSlot, down] at flies
    · have other : (i : Nat) ≠ j := fun k => e (Fin.ext k)
      simpa [setSlot, other] using flies
  · intro j e
    obtain rfl : i = j := by simpa using e
    simp [window_of_inFlight h, slotInFlight]
  · intro j flies
    by_contra e
    obtain rfl : i = j := by simpa using e
    simp [setSlot, down] at flies

/-- Without a slot in flight none is counted. -/
theorem slotsInFlight_none {s : State} (h : inFlight s = none) : slotsInFlight s = 0 := by
  rw [slotsInFlight, List.countP_eq_zero]
  intro i member
  have none := List.findSome?_eq_none_iff.1 h i member
  simpa using none

theorem slotsInFlight_returned {s : State} (one : slotsInFlight s ≤ 1) : slotsInFlight (returnInFlight s) = 0 := by
  cases h : inFlight s with
  | none =>
    have same : returnInFlight s = s := by unfold returnInFlight; rw [h]
    rw [same, slotsInFlight_none h]
  | some p =>
    obtain ⟨i, b⟩ := p
    have same : returnInFlight s = setSlot i (.sealed b) s := by unfold returnInFlight; rw [h]; rfl
    rw [same, slotsInFlight_set h rfl one]

/-- A slot more is in flight at most. -/
theorem slotsInFlight_setSlot (s : State) (i : Fin 8) (x : Slot) :
    slotsInFlight (setSlot i x s) ≤ slotsInFlight s + 1 := by
  have each (l : List (Fin 8)) : l.countP (fun j => (slotInFlight (setSlot i x s).window[j]).isSome) ≤
      l.countP (fun j => (slotInFlight s.window[j]).isSome) + l.countP fun j => i == j := by
    induction l with
    | nil => simp
    | cons j l ih =>
      simp only [List.countP_cons]
      by_cases e : i = j
      · subst e
        simp only [beq_self_eq_true, if_true]
        split <;> omega
      · have other : (i : Nat) ≠ j := fun k => e (Fin.ext k)
        have same : (setSlot i x s).window[j] = s.window[j] := by simp [setSlot, other]
        simp only [same]
        omega
  have own : ∀ i : Fin 8, (List.finRange 8).countP (fun j => i == j) ≤ 1 := by decide
  exact (each _).trans (Nat.add_le_add_left (own i) _)

/-! ## On the ground -/

/-- No block is on its way, no slot is IN_FLIGHT, and used is at most the capacity. -/
structure Grounded (s : State) : Prop where
  used  : s.space.used ≤ capacity s
  phase : airborne s = false
  slots : slotsInFlight s = 0

theorem flightOk_iff (s : State) : flightOk s = true ↔
    s.space.used ≤ capacity s ∧ slotsInFlight s ≤ (if airborne s = true then 1 else 0) ∧
      (airborne s = true → sends s = true ∧ (s.link.state = .sending ∨ s.link.state = .tokenWait) ∧
        s.space.used < capacity s) := by
  cases h : airborne s <;> simp [flightOk, h, and_assoc]

theorem Grounded.flightOk {s : State} (h : Grounded s) : flightOk s = true := by
  rw [flightOk_iff, h.phase, h.slots]
  exact ⟨h.used, by simp, fun k => nomatch k⟩

/-- A link that is not sending a block nor awaiting its token is grounded. -/
theorem grounded_of {s : State} (ok : Machine.flightOk s = true) (phase : airborne s = false) : Grounded s := by
  obtain ⟨used, slots, -⟩ := (flightOk_iff s).1 ok
  rw [phase] at slots
  exact ⟨used, phase, by simpa using slots⟩

/-- Used and capacity are of the cargo. -/
theorem space_of_cargo {s t : State} (c : cargo t = cargo s) :
    t.space.used = s.space.used ∧ capacity t = capacity s := by
  have chain : t.space.chain = s.space.chain := congrArg (·.ledger.chain) c
  exact ⟨congrArg (·.ledger.used) c, by rw [capacity, chain]; rfl⟩

section
variable {s t : State}

/-- With no slot in flight, what leaves cargo and window alone and starts no block is on the ground. -/
theorem grounded_next (used : s.space.used ≤ capacity s) (slots : slotsInFlight s = 0) (c : cargo t = cargo s)
    (window : t.window = s.window) (phase : airborne t = false) : Grounded t := by
  obtain ⟨same, cap⟩ := space_of_cargo c
  exact ⟨by rw [same, cap]; exact used, phase, by rw [slotsInFlight_congr (s := s) (by rw [window])]; exact slots⟩

theorem Grounded.next (h : Grounded s) (c : cargo t = cargo s) (window : t.window = s.window) (phase : airborne t = false) :
    Grounded t := grounded_next h.used h.slots c window phase

/-- What leaves the phase alone too. -/
theorem Grounded.still (h : Grounded s) (c : cargo t = cargo s) (window : t.window = s.window)
    (phase : t.link.phase = s.link.phase) : Grounded t :=
  h.next c window (by simpa only [airborne, phase] using h.phase)

/-- A flight is read from the counts of space, the slots in flight, the phase and the two states. -/
theorem flightOk_congr (used : t.space.used = s.space.used) (cap : capacity t = capacity s)
    (aloft : t.window.map slotInFlight = s.window.map slotInFlight) (phase : t.link.phase = s.link.phase)
    (state : t.link.state = s.link.state) (journal : t.journal.state = s.journal.state) : flightOk t = flightOk s := by
  have air : airborne t = airborne s := by simp only [airborne, phase]
  have sending : sends t = sends s := by simp only [sends, journal]
  simp only [flightOk, used, cap, slotsInFlight_congr aloft, air, sending, state]

/-- What leaves cargo, window, phase and states alone leaves a flight. -/
theorem flightOk_still (c : cargo t = cargo s) (window : t.window = s.window) (phase : t.link.phase = s.link.phase)
    (state : t.link.state = s.link.state) (journal : t.journal.state = s.journal.state) : flightOk t = flightOk s := by
  obtain ⟨used, cap⟩ := space_of_cargo c
  exact flightOk_congr used cap (by rw [window]) phase state journal

/-- A flight goes on in another sending state. -/
theorem flightOk_sending (ok : flightOk s = true) (c : cargo t = cargo s) (window : t.window = s.window)
    (phase : t.link.phase = s.link.phase) (state : t.link.state = s.link.state) (sending : sends t = true) :
    flightOk t = true := by
  obtain ⟨used, cap⟩ := space_of_cargo c
  have air : airborne t = airborne s := by simp only [airborne, phase]
  obtain ⟨within, slots, flies⟩ := (flightOk_iff s).1 ok
  rw [flightOk_iff, used, cap, air, slotsInFlight_congr (s := s) (by rw [window]), state]
  exact ⟨within, slots, fun h => ⟨sending, (flies h).2⟩⟩

/-- Outside the sending states the link is grounded (R143). -/
theorem grounded_of_not_sends (ok : flightOk s = true) (silent : sends s = false) : Grounded s := by
  refine grounded_of ok ?_
  by_contra flies
  obtain ⟨-, -, sending⟩ := (flightOk_iff s).1 ok
  rw [(sending (by simpa using flies)).1] at silent
  cases silent

theorem Carried.flightOk (h : Carried s t) : Machine.flightOk t = Machine.flightOk s := by
  have window : t.window = s.window := congrArg Course.window h.course
  have link : t.link = s.link := congrArg Course.link h.course
  have space : t.space = s.space := congrArg Course.space h.course
  have journal : t.journal = s.journal := congrArg Course.journal h.course
  exact flightOk_congr (by rw [space]) (by simp only [capacity, space]) (by rw [window]) (by rw [link]) (by rw [link])
    (by rw [journal])

theorem Framed.flightOk (h : Framed s t) : Machine.flightOk t = Machine.flightOk s := by
  have link : t.link = s.link := congrArg (·.1) h.hull
  have space : t.space = s.space := congrArg (·.2.1) h.hull
  have journal : t.journal = s.journal := congrArg (·.2.2.1) h.hull
  exact flightOk_congr (by rw [space]) (by simp only [capacity, space]) h.aloft (by rw [link]) (by rw [link])
    (by rw [journal])

end

/-! ## Operations that start no block -/

section
variable {s : State}

theorem sendFrame_grounded (c : LinkCmd) (h : Grounded s) : Grounded (sendFrame c s) := h.next rfl rfl rfl

theorem restIn_grounded (st : LinkState) (h : Grounded s) : Grounded (restIn st s) := h.next rfl rfl rfl

theorem awaitGap_grounded (c : LinkCmd) (h : Grounded s) : Grounded (awaitGap c s) := h.next rfl rfl rfl

theorem awaitBusy_grounded (c : LinkCmd) (h : Grounded s) : Grounded (awaitBusy c s) := h.next rfl rfl rfl

theorem linkError_grounded (k : LinkErr) (c : LinkCmd) (tag : Byte) (serial addr : Option Word) (n : Nat) (o : ErrOutcome)
    (h : Grounded s) : Grounded (linkError k c tag serial addr n o s) := h.still (by simp) rfl rfl

theorem endRunning_grounded (st : CmdStatus) (re : Option Reason) (a b : Word) (h : Grounded s) :
    Grounded (endRunning st re a b s) := h.still (by simp) rfl rfl

theorem quiescent_grounded (h : Grounded s) : Grounded (quiescent s) := by
  unfold quiescent
  split
  · exact endRunning_grounded _ _ _ _ (h.still rfl rfl rfl)
  · split
    · exact endRunning_grounded _ _ _ _ h
    · exact h
  all_goals exact h

theorem faultSignal_grounded (h : Grounded s) : Grounded (faultSignal s) := by
  rw [faultSignal_eq]
  exact h.still (by rw [← faultSignal_eq]; simp) rfl rfl

theorem startReady_grounded (h : Grounded s) : Grounded (startReady s) :=
  endRunning_grounded _ _ _ _ (h.still rfl rfl rfl)

theorem recovered_grounded (h : Grounded s) : Grounded (recovered s) := by
  unfold recovered
  split
  · exact h.still rfl rfl rfl
  · exact endRunning_grounded _ _ _ _ (h.still rfl rfl rfl)
  · exact h

/-- Entry to FAULT grounds the one block that was out (R72, R157). -/
theorem enterFault_grounded (used : s.space.used ≤ capacity s) (one : slotsInFlight s ≤ 1) : Grounded (enterFault s) :=
  faultSignal_grounded (Grounded.still (s := { returnInFlight s with link.phase := .rest true true })
    ⟨used, rfl, slotsInFlight_returned one⟩ (by simp [to_cargo]) rfl rfl)

theorem Grounded.fault (h : Grounded s) : Grounded (enterFault s) := enterFault_grounded h.used (by rw [h.slots]; norm_num)

theorem initFails_grounded (k : LinkErr) (c : LinkCmd) (h : Grounded s) : Grounded (initFails k c s) :=
  (linkError_grounded _ _ _ _ _ _ _ h).fault

theorem initTransport_grounded (k : LinkErr) (c : LinkCmd) (h : Grounded s) : Grounded (initTransport k c s) := by
  have noted (o : ErrOutcome) := linkError_grounded k c s.link.sentTag none none (s.link.consecutive + 1) o h
  unfold initTransport
  dsimp only
  split
  · have counted : Grounded { s with link.consecutive := s.link.consecutive + 1 } := h.still rfl rfl rfl
    exact (linkError_grounded _ _ _ _ _ _ _ counted).fault
  split
  · exact initFails_grounded _ _ ((noted .fault).still rfl rfl rfl)
  · exact awaitGap_grounded _ ((noted .retry).still rfl rfl rfl)

theorem beginInit_grounded (h : Grounded s) : Grounded (beginInit s) := by
  rw [beginInit]
  dsimp only
  split
  · exact h.still rfl rfl rfl
  split
  · exact h.next rfl rfl rfl
  · exact h.next rfl rfl rfl

theorem identTaken_grounded (i : Identity) (h : Grounded s) : Grounded (identTaken i s) := by
  unfold identTaken
  dsimp only
  split
  · exact initFails_grounded _ _ (h.still rfl rfl rfl)
  split
  · exact h.next rfl rfl rfl
  split
  · exact h.next rfl rfl rfl
  · exact initFails_grounded _ _ (h.still rfl rfl rfl)

theorem endReadback_grounded (st : CmdStatus) (re : Option Reason) (h : Grounded s) : Grounded (endReadback st re s) :=
  endRunning_grounded _ _ _ _ (restIn_grounded _ (h.still rfl rfl rfl))

theorem commandFails_grounded (c : LinkCmd) (h : Grounded s) : Grounded (commandFails c s) := by
  cases c with
  | endRun => exact beginInit_grounded h
  | readOne => exact endReadback_grounded _ _ h
  | resetStore | ident | setup | writeRun | commit | status => exact h.fault

theorem retryOrFail_grounded (k : LinkErr) (c : LinkCmd) (h : Grounded s) : Grounded (retryOrFail k c s) := by
  unfold retryOrFail
  dsimp only
  split
  · exact awaitGap_grounded _ ((linkError_grounded k c _ _ _ _ _ h).still rfl rfl rfl)
  · exact commandFails_grounded _ ((linkError_grounded k c _ _ _ _ _ h).still rfl rfl rfl)

theorem transportError_grounded (k : LinkErr) (c : LinkCmd) (h : Grounded s) : Grounded (transportError k c s) := by
  cases c with
  | ident | setup | status => exact initTransport_grounded _ _ h
  | resetStore | writeRun | endRun | commit | readOne => exact retryOrFail_grounded _ _ h

theorem statusError_grounded (k : LinkErr) (c : LinkCmd) (w : Word) (h : Grounded s) : Grounded (statusError k c w s) := by
  unfold statusError
  dsimp only
  split
  iterate 3 exact initFails_grounded _ _ h
  all_goals
    split
    · exact (linkError_grounded _ _ _ _ _ _ _ h).fault
    · exact commandFails_grounded _ (linkError_grounded _ _ _ _ _ _ _ h)

theorem issueCommand_grounded (c : LinkCmd) (h : Grounded s) : Grounded (issueCommand c s) := by
  cases c with
  | commit | writeRun | endRun | readOne => exact h.next rfl rfl rfl
  | resetStore | ident | setup | status => exact h.still rfl rfl rfl

theorem endIdleRun_grounded (g : Bool) (h : Grounded s) : Grounded (endIdleRun g s) := by
  unfold endIdleRun
  dsimp only
  split <;> exact h.next rfl rfl rfl

theorem startIdle_grounded (g : Bool) (h : Grounded s) : Grounded (startIdle g s) := by
  unfold startIdle
  split
  · exact h
  split
  · exact endIdleRun_grounded g h
  · exact h.still rfl rfl rfl

/-! ## The choice of R144 -/

theorem chooseReady_ne_block : chooseReady s ≠ .block := by
  unfold chooseReady
  split_ifs <;> simp

theorem chooseInRun_block (h : chooseInRun s = .block) : sendingState s = true ∧ 0 < freeBlocks s := by
  unfold chooseInRun at h
  split at h
  · cases h
  split at h
  · cases h
  split at h
  · cases h
  split at h
  · split at h <;> cases h
  split at h
  · split at h
    · exact ⟨by simpa using ‹¬(!sendingState s) = true›, ‹_›⟩
    · cases h
  · cases h

/-- A block is chosen in a sending state with space free (R144). -/
theorem choose_block (h : choose s = .block) : sends s = true ∧ s.space.used < capacity s := by
  have inRun : chooseInRun s = .block := by
    unfold choose at h
    split at h
    · exact absurd h chooseReady_ne_block
    · exact h
    all_goals cases h
  obtain ⟨state, free⟩ := chooseInRun_block inRun
  refine ⟨?_, Nat.lt_of_sub_pos free⟩
  revert state
  unfold sendingState sends
  cases s.journal.state <;> decide

theorem startBlock_flightOk (h : Grounded s) (sending : sends s = true) (free : s.space.used < capacity s) :
    flightOk (startBlock s) = true := by
  unfold startBlock
  split
  · rename_i i b oldest
    have slots := slotsInFlight_setSlot s i (.inFlight b)
    rw [h.slots] at slots
    exact (flightOk_iff _).2 ⟨h.used, slots, fun _ => ⟨sending, .inl rfl, free⟩⟩
  · exact h.flightOk

theorem act_flightOk (g d : Bool) {c : Choice} (h : Grounded s)
    (block : c = .block → sends s = true ∧ s.space.used < capacity s) : flightOk (act g d s c) = true := by
  cases c with
  | nothing => exact (h.still (t := { s with link.idle := none }) rfl rfl rfl).flightOk
  | boundary =>
    have idle : Grounded { s with link.idle := none } := h.still rfl rfl rfl
    exact (quiescent_grounded idle).flightOk
  | closeRun => exact h.flightOk
  | idle => exact (startIdle_grounded g h).flightOk
  | block =>
    obtain ⟨sending, free⟩ := block rfl
    have idle : Grounded { s with link.idle := none } := h.still rfl rfl rfl
    rw [act]
    split
    · exact idle.flightOk
    · exact startBlock_flightOk idle sending free
  | command c =>
    rw [act]
    split
    · exact (h.still (t := { s with link.idle := none }) rfl rfl rfl).flightOk
    · exact (issueCommand_grounded c h).flightOk

theorem linkChoose_flightOk (h : Grounded s) : flightOk (linkChoose s) = true := by
  unfold linkChoose
  split
  · split
    · exact act_flightOk _ _ (h.still (t := closeRun s) rfl rfl rfl) choose_block
    · exact act_flightOk _ _ h choose_block
  · exact h.flightOk

/-- A link with a block on its way chooses nothing. -/
theorem linkChoose_airborne (h : airborne s = true) : linkChoose s = s := by
  unfold linkChoose
  unfold airborne at h
  split
  · rw [‹s.link.phase = _›] at h
    cases h
  · rfl

/-- A choice keeps what a flight is. -/
theorem linkChoose_keeps (ok : flightOk s = true) : flightOk (linkChoose s) = true := by
  by_cases h : airborne s = true
  · rw [linkChoose_airborne h]
    exact ok
  · exact linkChoose_flightOk (grounded_of ok (by simpa using h))

end

end Sys2Proof.Machine
end

section
/-! PROOFS. A flight through the rows of the link: the windows of responses and tokens, the busy waits, and the waits of the link's
own. -/

namespace Sys2Proof.Machine

section
variable {s : State}

/-! ## Responses -/

theorem inWindow_flightOk {c : LinkCmd} {f : State → State} (each : ∀ s, Grounded s → flightOk (f s) = true)
    (ok : flightOk s = true) : flightOk (inWindow c f s) = true := by
  unfold inWindow
  split
  · rename_i phase
    have ground := grounded_of ok (by rw [airborne, phase])
    split
    · exact (sendFrame_grounded .resetStore (ground.still (t := { s with link.resetDue := false }) rfl rfl rfl)).flightOk
    · exact each s ground
  · exact ok

theorem shortResponse_flightOk {c : LinkCmd} {bits : BitVec 64} {taken : State → State}
    (each : ∀ s, Grounded s → flightOk (taken s) = true) (ok : flightOk s = true) :
    flightOk (shortResponse c bits taken s) = true := by
  refine inWindow_flightOk (fun s h => ?_) ok
  dsimp only
  split
  · exact (transportError_grounded _ _ h).flightOk
  · have noted : Grounded { s with link.lastStatus := some ⟨shortStatus bits, shortState bits, c⟩ } := h.still rfl rfl rfl
    split
    · exact (statusError_grounded _ _ _ noted).flightOk
    · exact each _ noted

theorem setupTaken_grounded (h : Grounded s) : Grounded (setupTaken s) := h.next rfl rfl rfl

theorem initSucceeds_flightOk (h : Grounded s) : flightOk (initSucceeds s) = true := by
  have ready : Grounded (restIn .ready { s with link.consecutive := 0, link.recovery := false }) := h.next rfl rfl rfl
  refine linkChoose_flightOk ?_
  split
  · exact ready
  · split
    · exact startReady_grounded ready
    · exact recovered_grounded ready
    all_goals exact ready

theorem writeRunTaken_flightOk (h : Grounded s) : flightOk (writeRunTaken s) = true :=
  linkChoose_flightOk (h.next rfl rfl rfl)

theorem endRunTaken_grounded (h : Grounded s) : Grounded (endRunTaken s) := h.next rfl rfl rfl

theorem readOneTaken_grounded (h : Grounded s) : Grounded (readOneTaken s) := h.next rfl rfl rfl

theorem identResponse_flightOk (bits : BitVec 160) (ok : flightOk s = true) : flightOk (identResponse bits s) = true := by
  refine inWindow_flightOk (fun s h => ?_) ok
  split
  · exact (transportError_grounded _ _ h).flightOk
  · exact (identTaken_grounded _ h).flightOk

theorem windowTimeout_flightOk (ok : flightOk s = true) : flightOk (windowTimeout s) = true := by
  unfold windowTimeout
  split
  · exact inWindow_flightOk (fun s h => (transportError_grounded _ _ h).flightOk) ok
  · exact ok

/-! ## Waits of the link's own -/

theorem idlePeriodEnds_flightOk (ok : flightOk s = true) : flightOk (idlePeriodEnds s) = true := by
  unfold idlePeriodEnds
  split
  · exact (sendFrame_grounded _ (grounded_of ok (by rw [airborne, ‹s.link.phase = _›]))).flightOk
  · exact ok

theorem pollEnds_flightOk (ok : flightOk s = true) : flightOk (pollEnds s) = true := by
  unfold pollEnds
  split
  · exact (sendFrame_grounded _ (grounded_of ok (by rw [airborne, ‹s.link.phase = _›]))).flightOk
  · exact ok

theorem abandonmentEnds_grounded (h : Grounded s) : Grounded (abandonmentEnds s) := by
  unfold abandonmentEnds
  dsimp only
  split <;> exact h.next rfl rfl rfl

theorem settleEnds_flightOk (ok : flightOk s = true) : flightOk (settleEnds s) = true := by
  unfold settleEnds
  split
  · exact ok
  · rename_i phase
    have ground := grounded_of ok (by rw [airborne, not_not.1 phase])
    split
    · exact (sendFrame_grounded .resetStore (ground.still (t := { s with link.resetDue := false }) rfl rfl rfl)).flightOk
    split
    · exact (abandonmentEnds_grounded ground).flightOk
    · exact (sendFrame_grounded _ ground).flightOk

theorem commandFrameEnds_flightOk (ok : flightOk s = true) : flightOk (commandFrameEnds s) = true := by
  unfold commandFrameEnds
  split
  · have ground := grounded_of ok (by rw [airborne, ‹s.link.phase = _›])
    unfold frameEnds
    split
    · exact (ground.next (t := { s with link.phase := .settle, link.consecutive := 0, link.initExpired := false })
        rfl rfl rfl).flightOk
    · exact (ground.next (t := { s with link.phase := .window _ }) rfl rfl rfl).flightOk
  · exact ok

theorem commandGapEnds_flightOk (ok : flightOk s = true) : flightOk (commandGapEnds s) = true := by
  unfold commandGapEnds
  split
  · exact (sendFrame_grounded _ (grounded_of ok (by rw [airborne, ‹s.link.phase = _›]))).flightOk
  · have ground := grounded_of ok (by rw [airborne, ‹s.link.phase = _›])
    exact linkChoose_flightOk (ground.next rfl rfl rfl)
  · exact ok

theorem dataGapEnds_flightOk (ok : flightOk s = true) : flightOk (dataGapEnds s) = true := by
  unfold dataGapEnds
  split
  · have ground := grounded_of ok (by rw [airborne, ‹s.link.phase = _›])
    split
    · exact linkChoose_flightOk (ground.next rfl rfl rfl)
    · exact ok
  · exact ok

theorem idleExpires_flightOk (ok : flightOk s = true) : flightOk (idleExpires s) = true := by
  unfold idleExpires
  split
  · exact (endIdleRun_grounded _ (grounded_of ok (by rw [airborne, ‹s.link.phase = _›]))).flightOk
  · exact ok

theorem initLimit_flightOk (ok : flightOk s = true) : flightOk (initLimit s) = true := by
  unfold initLimit
  split
  · exact ok
  · split
    · exact (initFails_grounded _ _ (grounded_of ok (by rw [airborne, ‹s.link.phase = _›]))).flightOk
    · exact (initFails_grounded _ _ (grounded_of ok (by rw [airborne, ‹s.link.phase = _›]))).flightOk
    · exact (flightOk_still (s := s) rfl rfl rfl rfl rfl).trans ok
    · exact (flightOk_still (s := s) rfl rfl rfl rfl rfl).trans ok
    · exact ok

/-! ## Blocks out, tokens and busy waits -/

/-- The end of a block out awaits its token, in flight as before. -/
theorem blockOutEnds_flightOk (ok : flightOk s = true) : flightOk (blockOutEnds s) = true := by
  unfold blockOutEnds
  split
  · rename_i serial addr phase
    have air : airborne s = true := by rw [airborne, phase]
    obtain ⟨used, slots, flies⟩ := (flightOk_iff s).1 ok
    obtain ⟨sending, -, free⟩ := flies air
    rw [air] at slots
    exact (flightOk_iff _).2 ⟨used, slots, fun _ => ⟨sending, .inr rfl, free⟩⟩
  · exact ok

theorem inTokenWindow_flightOk {f : Word → Word → State → State}
    (each : ∀ serial addr s, s.space.used < capacity s → slotsInFlight s ≤ 1 → flightOk (f serial addr s) = true)
    (ok : flightOk s = true) : flightOk (inTokenWindow f s) = true := by
  unfold inTokenWindow
  split
  · rename_i serial addr phase
    have air : airborne s = true := by rw [airborne, phase]
    obtain ⟨-, slots, flies⟩ := (flightOk_iff s).1 ok
    rw [air] at slots
    exact each serial addr s (flies air).2.2 slots
  · exact ok

/-- The state after an ACCEPT whose slot is already freed (R86, R104, R147). -/
def accepted (serial addr : Word) (s : State) : State :=
  { advanceHead s with
    markers.entries := (advanceHead s).markers.entries.map (acceptMarker serial)
    link.run := (advanceHead s).link.run.map fun r => { r with remaining := r.remaining - 1 }
    link.attempts := 0
    link.state := .programming
    link.phase := .busyToken serial addr (advanceHead s).words.busyLimit }

/-- The slot that is in flight is freed (R73). -/
def withFreed (s : State) : State :=
  match inFlight s with
  | some (i, _) => setSlot i .free s
  | none => s

theorem acceptToken_eq (serial addr : Word) (s : State) :
    acceptToken serial addr s =
      if framerWaiting s then framerStep (accepted serial addr (withFreed s)) else accepted serial addr (withFreed s) := rfl

theorem slotsInFlight_withFreed (one : slotsInFlight s ≤ 1) : slotsInFlight (withFreed s) = 0 := by
  unfold withFreed
  split
  · exact slotsInFlight_set ‹_› rfl one
  · exact slotsInFlight_none ‹_›

theorem withFreed_space (s : State) : (withFreed s).space = s.space := by
  unfold withFreed
  split <;> rfl

/-- An ACCEPT keeps used within the capacity (R101, R104). -/
theorem accepted_grounded (serial addr : Word) (free : s.space.used < capacity s) (slots : slotsInFlight s = 0) :
    Grounded (accepted serial addr s) := by
  have used : (accepted serial addr s).space.used = s.space.used + 1 := by rw [accepted, advanceHead_eq]
  have chain : (accepted serial addr s).space.chain = s.space.chain := by rw [accepted, advanceHead_eq]
  have window : (accepted serial addr s).window = s.window := by rw [accepted, advanceHead_eq]
  refine ⟨?_, rfl, (slotsInFlight_congr (by rw [window])).trans slots⟩
  rw [used, capacity, chain]
  exact free

theorem acceptToken_flightOk (serial addr : Word) (free : s.space.used < capacity s) (one : slotsInFlight s ≤ 1) :
    flightOk (acceptToken serial addr s) = true := by
  have ground : Grounded (accepted serial addr (withFreed s)) :=
    accepted_grounded serial addr (by rw [capacity, withFreed_space]; exact free) (slotsInFlight_withFreed one)
  rw [acceptToken_eq]
  split
  · exact (framerStep_framed _).flightOk.trans ground.flightOk
  · exact ground.flightOk

/-- A failed block is back in the window before the link goes on (R72, R152). -/
theorem blockFails_grounded (k : LinkErr) (awaits : Bool) (serial addr : Word) (used : s.space.used ≤ capacity s)
    (one : slotsInFlight s ≤ 1) : Grounded (blockFails k awaits serial addr s) := by
  have back := slotsInFlight_returned one
  unfold blockFails
  dsimp only
  split
  · split
    · exact grounded_next (s := returnInFlight s) used back (by simp [to_cargo]) (by simp [countRetry, linkError]) rfl
    · exact grounded_next (s := returnInFlight s) used back (by simp [to_cargo])
        (by simp [closeAfterFailure, awaitGap, countRetry, linkError]) rfl
  · have noted (o : ErrOutcome) : slotsInFlight (linkError k .writeRun (runTag (returnInFlight s)) (some serial) (some addr)
        ((returnInFlight s).link.attempts + 1) o (returnInFlight s)) = 0 := back
    exact enterFault_grounded used ((noted .fault).le.trans zero_le_one)

theorem takeToken_flightOk (t : Token) (ok : flightOk s = true) : flightOk (takeToken t s) = true := by
  refine inTokenWindow_flightOk (fun serial addr s free one => ?_) ok
  cases t with
  | accept => exact acceptToken_flightOk serial addr free one
  | crcBad | writeFail | range | invalid => exact (blockFails_grounded _ _ serial addr free.le one).flightOk

theorem tokenTimeout_flightOk (ok : flightOk s = true) : flightOk (inTokenWindow (blockFails .tokenTimeout true) s) = true :=
  inTokenWindow_flightOk (fun serial addr _ free one => (blockFails_grounded _ _ serial addr free.le one).flightOk) ok

theorem tokenBusyEnds_flightOk (h : Grounded s) : flightOk (tokenBusyEnds s) = true := by
  unfold tokenBusyEnds
  split
  · split
    · split <;> exact linkChoose_flightOk (h.next rfl rfl rfl)
    · exact linkChoose_flightOk (h.next rfl rfl rfl)
  · exact (h.next (t := closeAfterFailure s) rfl rfl rfl).flightOk
  all_goals exact h.flightOk

/-- The markers that become DURABLE leave the link, the window and the space to themselves. -/
theorem makeDurable_berth (s : State) :
    (makeDurable s).link = s.link ∧ (makeDurable s).window = s.window ∧ (makeDurable s).space = s.space := by
  have released (u : State) (gone : List Marker) : (releaseHeld gone u).link = u.link ∧
      (releaseHeld gone u).window = u.window ∧ (releaseHeld gone u).space = u.space := by
    have same := (releaseHeld_carried u gone).course
    exact ⟨congrArg Course.link same, congrArg Course.window same, congrArg Course.space same⟩
  have ended (u : State) : (stopCompletes u).link = u.link ∧ (stopCompletes u).window = u.window ∧
      (stopCompletes u).space = u.space := by
    unfold stopCompletes
    dsimp only
    split <;> exact ⟨rfl, rfl, rfl⟩
  unfold makeDurable
  dsimp only
  split
  · exact ⟨rfl, rfl, rfl⟩
  · split
    · obtain ⟨link, window, space⟩ := ended (releaseHeld (durableMarkers s) _)
      exact ⟨link.trans (released _ _).1, window.trans (released _ _).2.1, space.trans (released _ _).2.2⟩
    · exact released _ _

theorem commitSucceeds_flightOk (h : Grounded s) : flightOk (commitSucceeds s) = true := by
  obtain ⟨link, window, space⟩ := makeDurable_berth (moveBoundary (bump .commits 1 s))
  have used : (makeDurable (moveBoundary (bump .commits 1 s))).space.used = s.space.used := by rw [space]; simp
  have cap : capacity (makeDurable (moveBoundary (bump .commits 1 s))) = capacity s := by
    simp [capacity, space]
  have slots : slotsInFlight (makeDurable (moveBoundary (bump .commits 1 s))) = slotsInFlight s :=
    slotsInFlight_congr (by rw [window]; simp)
  exact linkChoose_flightOk ⟨used.trans_le (h.used.trans cap.ge), rfl, slots.trans h.slots⟩

theorem commandBusyEnds_flightOk (c : LinkCmd) (h : Grounded s) : flightOk (commandBusyEnds c s) = true := by
  cases c with
  | endRun => exact linkChoose_flightOk (h.next rfl rfl rfl)
  | commit => exact commitSucceeds_flightOk h
  | resetStore | ident | setup | writeRun | status | readOne => exact h.flightOk

theorem busyEnds_flightOk (ok : flightOk s = true) : flightOk (busyEnds s) = true := by
  unfold busyEnds
  split
  · exact tokenBusyEnds_flightOk (grounded_of ok (by rw [airborne, ‹s.link.phase = _›]))
  · exact commandBusyEnds_flightOk _ (grounded_of ok (by rw [airborne, ‹s.link.phase = _›]))
  · exact ok

theorem busyExpires_flightOk (ok : flightOk s = true) : flightOk (busyExpires s) = true := by
  unfold busyExpires
  split
  · rename_i serial addr _ phase
    have ground := grounded_of ok (by rw [airborne, ‹s.link.phase = _›])
    have noted := linkError_grounded .busyTimeout .writeRun (runTag s) (some serial) (some addr) (s.link.sendCount + 1)
      .recovery ground
    exact (noted.next (t := tokenBusyTimeout serial addr s) rfl rfl rfl).flightOk
  · have ground := grounded_of ok (by rw [airborne, ‹s.link.phase = _›])
    exact (commandFails_grounded _ (linkError_grounded _ _ _ _ _ _ _ ground)).flightOk
  · exact ok

/-! ## READBACK -/

theorem blockReceived_grounded (b : BlockIn) (h : Grounded s) : Grounded (blockReceived b s) := by
  have filled (m : Memory) : Grounded { s with buffer := m } := h.still rfl rfl rfl
  unfold blockReceived
  dsimp only
  split
  · exact retryOrFail_grounded _ _ (filled _)
  split
  · exact endReadback_grounded _ _ (filled _)
  · exact endReadback_grounded _ _ (filled _)

theorem readBlockIn_flightOk (b : BlockIn) (ok : flightOk s = true) : flightOk (readBlockIn b s) = true := by
  unfold readBlockIn
  split
  · exact (blockReceived_grounded b (grounded_of ok (by rw [airborne, ‹s.link.phase = _›]))).flightOk
  · exact ok

theorem readWindowExpires_flightOk (ok : flightOk s = true) : flightOk (readWindowExpires s) = true := by
  unfold readWindowExpires
  split
  · exact (retryOrFail_grounded _ _ (grounded_of ok (by rw [airborne, ‹s.link.phase = _›]))).flightOk
  · exact ok

end

end Sys2Proof.Machine
end

section
/-! PROOFS. What every row keeps together: order, counts and bounds, at most one ASSEMBLING slot, the durable count, the head, and
that a flag set now was set or enabled before. Composite operations are put together from their parts. -/

namespace Sys2Proof.Machine

/-! ## What is kept -/

/-- What every register write keeps too. -/
structure Kept (s t : State) : Prop extends Onward s t where
  drafting : drafting s ≤ 1 → drafting t ≤ 1
  durable  : s.space.durableUsed ≤ s.space.used → t.space.durableUsed ≤ t.space.used

/-- What a row keeps; the head too, unless the row may move it. -/
structure Sound (moves : Prop) (s t : State) : Prop extends Kept s t where
  cover : ∀ i, (cover t.events).getLsbD i = true → (cover s.events).getLsbD i = true
  head  : moves ∨ t.space.head = s.space.head

theorem Kept.trans {s t u : State} (h : Kept s t) (k : Kept t u) : Kept s u :=
  ⟨h.toOnward.trans k.toOnward, k.drafting ∘ h.drafting, k.durable ∘ h.durable⟩

section
variable {m : Prop} {s t u : State}

theorem Sound.refl (s : State) : Sound m s s := ⟨⟨.refl s, id, id⟩, fun _ => id, .inr rfl⟩

theorem Sound.trans (h : Sound m s t) (k : Sound m t u) : Sound m s u :=
  ⟨h.toKept.trans k.toKept, fun i => h.cover i ∘ k.cover i,
    h.head.elim .inl fun a => k.head.elim .inl fun b => .inr (b.trans a)⟩

/-- The assembling slots are counted in the drafts. -/
theorem drafting_congr (h : t.window.map slotDraft = s.window.map slotDraft) : drafting t = drafting s := by
  have read (u : State) (i : Fin 8) : slotDraft u.window[i] = (u.window.map slotDraft)[i] := by simp
  simp only [drafting, read, h]

theorem Carried.sound (h : Carried s t) : Sound m s t := by
  have window : t.window = s.window := congrArg Course.window h.course
  have space : t.space = s.space := congrArg Course.space h.course
  have covers : Machine.cover t.events = Machine.cover s.events := congrArg Course.cover h.course
  exact ⟨⟨h.toOnward, (drafting_congr (by rw [window])).trans_le, fun k => by rw [space]; exact k⟩,
    fun i k => by rw [← covers]; exact k, .inr (by rw [space])⟩

theorem Framed.sound (h : Framed s t) : Sound m s t := by
  have space : t.space = s.space := congrArg (·.2.1) h.hull
  have covers : Machine.cover t.events = Machine.cover s.events := congrArg (·.2.2.2) h.hull
  exact ⟨⟨h.toOnward, h.drafting, fun k => by rw [space]; exact k⟩, fun i k => by rw [← covers]; exact k,
    .inr (by rw [space])⟩

/-- What goes onward and leaves the ledger and the drafts alone. -/
theorem Onward.sound (h : Onward s t) (led : ledger t = ledger s)
    (drafts : t.window.map slotDraft = s.window.map slotDraft) : Sound m s t := by
  have used : t.space.used = s.space.used := congrArg Ledger.used led
  have durable : t.space.durableUsed = s.space.durableUsed := congrArg Ledger.durableUsed led
  have covers : Machine.cover t.events = Machine.cover s.events := congrArg Ledger.cover led
  exact ⟨⟨h, (drafting_congr drafts).trans_le, fun k => by rw [used, durable]; exact k⟩,
    fun i k => by rw [← covers]; exact k, .inr (congrArg Ledger.head led)⟩

/-- What leaves path and cargo alone. -/
theorem sound_of_cargo (settled : settings t = settings s) (p : path t = path s) (c : cargo t = cargo s) : Sound m s t :=
  (onward_of_cargo settled p c).sound (congrArg Cargo.ledger c) (congrArg Cargo.drafts c)

theorem linkChoose_sound (s : State) : Sound m s (linkChoose s) := sound_of_cargo (by simp) (by simp) (by simp)

/-! ## The Framer's rows -/

theorem framerCopies_sound (s : State) : Sound m s (framerCopies s) :=
  (framerStep_framed s).sound.trans (linkChoose_sound _)

theorem sealTimerExpires_sound (s : State) : Sound m s (sealTimerExpires s) := by
  unfold sealTimerExpires
  split
  · exact (sealTimerRunsOut_framed s).sound.trans (linkChoose_sound _)
  · exact .refl s

/-! ## An ACCEPT -/

theorem withFreed_sound (s : State) : Sound m s (withFreed s) := by
  unfold withFreed
  split
  · rename_i i b h
    have drafts : (setSlot i .free s).window.map slotDraft = s.window.map slotDraft :=
      map_set_same (by rw [window_of_inFlight h]; rfl)
    exact (onward_of_path (s := s) (t := setSlot i .free s) (by simp) (by simp) id id).sound rfl drafts
  · exact .refl s

/-- The head moves at an ACCEPT (R104). -/
theorem accepted_sound (serial addr : Word) (s : State) : Sound True s (accepted serial addr s) := by
  have same : ∀ u : State, u = advanceHead s → u.staging = s.staging ∧ u.capture = s.capture ∧
      u.markers = s.markers ∧ u.window = s.window ∧ u.space.durableUsed = s.space.durableUsed ∧
      u.space.used = s.space.used + 1 := by
    rintro u rfl
    rw [advanceHead_eq]
    exact ⟨rfl, rfl, rfl, rfl, rfl, rfl⟩
  obtain ⟨staging, capture, markers, window, durable, used⟩ := same _ rfl
  have covers : cover (advanceHead s).events = cover s.events := by simp [advanceHead, compareLow]
  refine ⟨⟨onward_of_path (by simp [accepted, to_settings]) (by simp [accepted, to_path])
    (fun h => ?_) fun h => ?_, ?_, ?_⟩,
    fun i h => ?_, .inl trivial⟩
  · simpa [accepted, markers] using h
  · exact (stagingOk_congr (s := s) (congrArg Staging.queue staging) (congrArg Capture.openRec capture)
      (congrArg Capture.openGap capture)).trans h
  · exact (drafting_congr (t := accepted serial addr s) (congrArg (·.map slotDraft) window)).trans_le
  · intro h
    exact durable.le.trans (h.trans (used ▸ Nat.le_succ _))
  · rw [← covers]
    exact h

theorem acceptToken_sound (serial addr : Word) (s : State) : Sound True s (acceptToken serial addr s) := by
  have taken := (withFreed_sound s).trans (accepted_sound serial addr (withFreed s))
  rw [acceptToken_eq]
  split
  · exact taken.trans (framerStep_framed _).sound
  · exact taken

theorem takeToken_sound (token : Token) (s : State) (h : m ∨ token ≠ .accept) : Sound m s (takeToken token s) := by
  unfold takeToken inTokenWindow
  split
  · rename_i serial addr phase
    cases token with
    | accept =>
      have taken := acceptToken_sound serial addr s
      exact ⟨taken.toKept, taken.cover, .inl (h.elim id fun k => absurd rfl k)⟩
    | crcBad | writeFail | range | invalid => exact sound_of_cargo (by simp) (by simp) (by simp)
  · exact .refl s

/-! ## A commit -/

theorem stopCompletes_sound (s : State) : Sound m s (stopCompletes s) := by
  have ended : Sound m s (if runningCode codeStop s = true then endRunning .done none 0 0 s else s) := by
    split
    · exact sound_of_cargo (by simp) (by simp) (by simp)
    · exact .refl s
  unfold stopCompletes
  refine ended.trans ?_
  generalize (if runningCode codeStop s = true then endRunning .done none 0 0 s else s) = u
  exact Onward.sound ⟨rfl, rfl, fun h => by simpa [endTracking] using h, id, id, fun _ => stagingOk_empty rfl rfl rfl⟩
    rfl rfl

/-- The entries that stay are among those there were (R88). -/
theorem stayingMarkers_length (s : State) : (stayingMarkers s).length ≤ s.markers.entries.length := by
  unfold stayingMarkers
  split
  · exact List.length_filter_le _ _
  · exact le_rfl

theorem makeDurable_sound (s : State) : Sound m s (makeDurable s) := by
  have left (a : Option Word) (e : Word) (tag : Half) :
      Sound m s { s with markers := ⟨stayingMarkers s, e, tag, a⟩ } :=
    Onward.sound (onward_of_path rfl rfl (stayingMarkers_length s).trans id) rfl rfl
  unfold makeDurable
  dsimp only
  split
  · exact left none s.markers.durableEpoch s.markers.durableTag
  · rename_i m' _
    have released := (((left none m'.epoch m'.tag).trans (raise_carried .epochDurable _).sound).trans
      (releaseHeld_carried _ (durableMarkers s)).sound)
    split
    · exact released.trans (stopCompletes_sound _)
    · exact released

theorem moveBoundary_sound (s : State) : Sound m s (moveBoundary s) := by
  refine ⟨⟨onward_of_path (by simp) (by simp) id id, id, fun h => ?_⟩, fun _ => id, .inr rfl⟩
  simp only [moveBoundary]
  split
  · exact le_rfl
  · exact h

theorem commitSucceeds_sound (s : State) : Sound m s (commitSucceeds s) :=
  ((((bump_carried .commits 1 s).sound.trans (moveBoundary_sound _)).trans (makeDurable_sound _)).trans
    (sound_of_cargo (by simp) (by simp) (by simp))).trans (linkChoose_sound _)

theorem commandBusyEnds_sound (c : LinkCmd) (s : State) : Sound m s (commandBusyEnds c s) := by
  cases c with
  | commit => exact commitSucceeds_sound s
  | endRun =>
    exact .trans (t := restIn .ready { s with link.run := none, link.recovery := false })
      (sound_of_cargo rfl rfl rfl) (linkChoose_sound _)
  | resetStore | ident | setup | writeRun | status | readOne => exact .refl s

theorem busyEnds_sound (s : State) : Sound m s (busyEnds s) := by
  unfold busyEnds
  split
  · exact sound_of_cargo (by simp) (by simp) (by simp)
  · exact commandBusyEnds_sound _ s
  · exact .refl s

/-! ## Commands -/

/-- A command is answered by its own rule under the next number, or refused BUSY. -/
theorem takeCommand_sound {code : BitVec 4} {admitted : Bool} {own : State → State}
    (answers : Sound m s (own (nextNumber s))) : Sound m s (takeCommand code admitted own s) := by
  unfold takeCommand
  dsimp only
  split
  · exact sound_of_cargo (by simp) (by simp) (by simp)
  · exact answers

theorem nextNumber_sound (s : State) : Sound m s (nextNumber s) := sound_of_cargo rfl rfl rfl

theorem refuse_sound (code : BitVec 4) (re : Reason) (s : State) : Sound m s (refuse code re s) :=
  sound_of_cargo (by simp) (by simp) (by simp)

theorem stopTaken_sound (s : State) : Sound m s (stopTaken s) := by
  have draining : Sound m s (runCommand codeStop { s with journal.state := .draining }) := sound_of_cargo rfl rfl rfl
  unfold stopTaken
  dsimp only
  refine .trans ?_ (linkChoose_sound _)
  have settle (u : State) : Sound m u
      { requestPauseSeal (settleHeldForStop u) with staging.finalMark := .waiting } :=
    ((settleHeldForStop_carried u).sound.trans (requestPauseSeal_framed _).sound).trans (sound_of_cargo rfl rfl rfl)
  split
  · refine (draining.trans ?_).trans (settle _)
    exact .trans (t := { runCommand codeStop { s with journal.state := .draining } with link.pauseReq := false })
      (sound_of_cargo rfl rfl rfl) (linkChoose_sound _)
  · exact draining.trans (settle _)

theorem stopOwn_sound (s : State) : Sound m s (stopOwn s) := by
  unfold stopOwn
  split
  · exact stopTaken_sound s
  · exact stopTaken_sound s
  · exact sound_of_cargo rfl rfl rfl
  all_goals exact refuse_sound _ _ s

theorem stopCommand_sound (s : State) : Sound m s (stopCommand s) :=
  takeCommand_sound ((nextNumber_sound s).trans (stopOwn_sound _))

theorem pauseCommand_sound (s : State) : Sound m s (pauseCommand s) := by
  refine takeCommand_sound ((nextNumber_sound s).trans ?_)
  unfold pauseOwn
  split
  · refine .trans ?_ (linkChoose_sound _)
    refine .trans ?_ (requestPauseSeal_framed _).sound
    exact sound_of_cargo rfl rfl rfl
  · exact refuse_sound _ _ _

theorem markCommand_sound (tag : Half) (s : State) : Sound m s (markCommand tag s) := by
  refine takeCommand_sound ((nextNumber_sound s).trans ?_)
  generalize nextNumber s = u
  unfold markOwn
  split
  · exact refuse_sound _ _ u
  split
  · exact refuse_sound _ _ u
  split
  · exact refuse_sound _ _ u
  · rename_i granted
    simp only [Bool.or_eq_true, Bool.not_eq_true', not_or, Bool.not_eq_true, Bool.not_eq_false] at granted
    exact (enterMark_carried tag .command false false granted.1 (room_of_markGranted u granted.2)).sound.trans
      (sound_of_cargo (by simp) (by simp) (by simp))

theorem reclaimBlocks_sound (n : Nat) (s : State) : Sound m s (reclaimBlocks n s) := by
  have covers : cover (reclaimBlocks n s).events = cover s.events := by simp [reclaimBlocks, compareLow]
  refine ⟨⟨onward_of_path (by simp) (by simp) id id, id, fun h => Nat.sub_le_sub_right h n⟩, fun i h => ?_, .inr rfl⟩
  rw [← covers]
  exact h

theorem reclaimCommand_sound (s : State) : Sound m s (reclaimCommand s) := by
  refine takeCommand_sound ((nextNumber_sound s).trans ?_)
  unfold reclaimOwn
  dsimp only
  split
  · exact refuse_sound _ _ _
  split
  · exact refuse_sound _ _ _
  · refine (reclaimBlocks_sound (nextNumber s).argWord.toNat _).trans (.trans ?_ (linkChoose_sound _))
    exact sound_of_cargo (by simp) (by simp) (by simp)

/-! ## HALT and SOFT_RESET -/

theorem haltPath_sound (s : State) : Sound m s (haltPath s) := by
  refine (forwardHeld_carried s).sound.trans ?_
  generalize hu : forwardHeld s = u
  have path : Onward u (haltPath s) := by
    unfold haltPath
    rw [hu]
    exact ⟨rfl, rfl, fun h => by simpa [endTracking] using h, fun _ => by simp, id, fun _ => stagingOk_empty rfl rfl rfl⟩
  have space : (haltPath s).space = u.space := by
    unfold haltPath
    rw [hu]
    rfl
  have events : (haltPath s).events = u.events := by
    unfold haltPath
    rw [hu]
    rfl
  refine ⟨⟨path, fun _ => ?_, fun h => by rw [space]; exact h⟩, fun i h => by rw [events] at h; exact h,
    .inr (by rw [space])⟩
  have none : drafting (haltPath s) = 0 := by
    rw [drafting, List.countP_eq_zero]
    intro i _
    simp [haltPath, slotDraft]
  omega

theorem haltMarkers_sound (s : State) : Sound m s (haltMarkers s) := by
  have covers : cover (haltMarkers s).events = cover s.events := by simp [haltMarkers]
  exact ⟨⟨onward_of_path (by simp) (by simp) (fun _ => Nat.zero_le _) id, id, id⟩, fun i h => by rw [← covers]; exact h,
    .inr rfl⟩

theorem haltSteps_sound (code : BitVec 4) (s : State) : Sound m s (haltSteps code s) := by
  have numbered : Sound m s (overtake (nextNumber s)) := sound_of_cargo (by simp) (by simp) (by simp)
  refine ((numbered.trans (haltPath_sound _)).trans (haltMarkers_sound _)).trans ?_
  exact sound_of_cargo (by simp [haltSteps, to_settings]) (by simp [haltSteps, to_path]) (by simp [haltSteps, to_cargo])

theorem softResetCommand_sound (s : State) : Sound m s (softResetCommand s) := by
  refine .trans (t := clearEvents s) ?_ (haltSteps_sound codeSoftReset _)
  refine ⟨⟨onward_of_path rfl rfl id id, id, id⟩, fun i h => ?_, .inr rfl⟩
  have enabled : s.events.enables.getLsbD i = true := by simpa [cover, clearEvents] using h
  simp [cover, enabled]

end

end Sys2Proof.Machine
end

section
/-! PROOFS. START and the command word: what a command keeps together, and the register writes of the management port. -/

namespace Sys2Proof.Machine

/-! ## START -/

/-- The state of a taken START before its initialisation (R176). -/
def startedBridge (p : Placement) (g : Half) (ch : List Extent) (s : State) : State :=
  let u := startCompares
    { runCommand codeStart { s with journal.state := .starting, journal.resume := none, journal.generation := g } with
      space := startSpace p ch s.space }
  let u := { u with
    capture := { seqCounter := 0, epochCounter := 1, openRec := none, openGap := none }
    staging.queue := []
    staging.finalMark := .none
    markers.durableEpoch := 0
    markers.durableTag := 0
    markers.commitEpoch := none
    framer := { Framer.por with generation := g, blockSize := u.words.blockSize } }
  let u := enterRecord (.gen (genFields p g u)) u
  { u with link.attempts := 0, link.pauseReq := false, link.readback := none, link.recovery := false }

theorem startTaken_bridge (p : Placement) (g : Half) (ch : List Extent) (s : State) :
    startTaken p g ch s = beginInit (startedBridge p g ch s) := rfl

section
variable {m : Prop} {s : State} (p : Placement) (g : Half) (ch : List Extent)

/-- The GEN record is alone in staging (R48), and the space stands as its placement says. -/
theorem cargo_startedBridge (s : State) :
    ∃ f : GenFields, cargo (startedBridge p g ch s) =
      { queue := [⟨⟨0, .gen f⟩, 0⟩], openRec := none, openGap := none, markers := s.markers.entries.length,
        drafts := s.window.map slotDraft,
        ledger :=
          { cover := cover s.events, head := (startSpace p ch s.space).head, used := (startSpace p ch s.space).used,
            durableUsed := (startSpace p ch s.space).durableUsed, chain := (startSpace p ch s.space).chain } } := by
  refine ⟨genFields p g s, ?_⟩
  simp [startedBridge, genFields, cargo, ledger, enterRecord, compareRise, startCompares, compareLow]

/-- START sets the head (R103). -/
theorem startTaken_sound : Sound True s (startTaken p g ch s) := by
  obtain ⟨f, c⟩ := cargo_startedBridge p g ch s
  rw [← (show cargo (startTaken p g ch s) = cargo (startedBridge p g ch s) from cargo_beginInit _)] at c
  have markers := congrArg Cargo.markers c
  have drafts : (startTaken p g ch s).window.map slotDraft = s.window.map slotDraft := congrArg Cargo.drafts c
  have used := congrArg (·.ledger.used) c
  have durable := congrArg (·.ledger.durableUsed) c
  have covers : cover (startTaken p g ch s).events = cover s.events := congrArg (·.ledger.cover) c
  have staged : stagingOk (startTaken p g ch s) = true := by
    rw [stagingOk_congr
      (s := { s with staging.queue := [⟨⟨0, .gen f⟩, 0⟩], capture.openRec := none, capture.openGap := none })
      (congrArg Cargo.queue c) (congrArg Cargo.openRec c) (congrArg Cargo.openGap c)]
    rfl
  refine ⟨⟨onward_of_path (by simp) (by simp) (fun h => markers.le.trans h) fun _ => staged,
    (drafting_congr drafts).trans_le, fun h => ?_⟩, fun i h => by rw [← covers]; exact h, .inl trivial⟩
  refine durable.le.trans (le_trans ?_ used.ge)
  cases p with
  | fromOrigin => exact le_rfl
  | _ => exact h -- CONTINUE keeps the counts (R101)

end

section
variable {m : Prop} (s : State)

theorem startCommand_sound (p : BitVec 2) (g : Half) : Sound True s (startCommand p g s) := by
  refine takeCommand_sound ((nextNumber_sound s).trans ?_)
  unfold startOwn
  split
  · exact refuse_sound _ _ _
  split
  · exact refuse_sound _ _ _
  · exact refuse_sound _ _ _
  split
  · exact refuse_sound _ _ _
  split
  · exact refuse_sound _ _ _
  · exact startTaken_sound _ _ _

/-! ## The command word -/

theorem resumeCommand_sound : Sound m s (resumeCommand s) := sound_of_cargo (by simp) (by simp) (by simp)

theorem readbackCommand_sound : Sound m s (readbackCommand s) := sound_of_cargo (by simp) (by simp) (by simp)

theorem recoverCommand_sound : Sound m s (recoverCommand s) := sound_of_cargo (by simp) (by simp) (by simp)

theorem badCodeCommand_sound (code : BitVec 4) : Sound m s (badCodeCommand code s) :=
  sound_of_cargo (by simp) (by simp) (by simp)

/-- A property of the command word's meaning, command by command. -/
theorem commandWord_cases {P : State → Prop} (start : ∀ p g, P (startCommand p g s)) (stop : P (stopCommand s))
    (halt : P (haltCommand s)) (pause : P (pauseCommand s)) (resume : P (resumeCommand s))
    (mark : ∀ tag, P (markCommand tag s)) (reclaim : P (reclaimCommand s)) (readback : P (readbackCommand s))
    (recover : P (recoverCommand s)) (softReset : P (softResetCommand s)) (bad : ∀ code, P (badCodeCommand code s))
    (v : Word) : P (commandWord v s) := by
  unfold commandWord
  dsimp only
  split
  · exact start _ _
  split
  · exact stop
  split
  · exact halt
  split
  · exact pause
  split
  · exact resume
  split
  · exact mark _
  split
  · exact reclaim
  split
  · exact readback
  split
  · exact recover
  split
  · exact softReset
  · exact bad _

theorem commandWord_sound (v : Word) : Sound True s (commandWord v s) :=
  commandWord_cases s (fun p g => startCommand_sound s p g) (stopCommand_sound s) (haltSteps_sound codeHalt s)
    (pauseCommand_sound s) (resumeCommand_sound s) (fun tag => markCommand_sound tag s) (reclaimCommand_sound s)
    (readbackCommand_sound s) (recoverCommand_sound s) (softResetCommand_sound s) (badCodeCommand_sound s) v

end

/-! ## Register writes -/

/-- What a row keeps that may write a mask too: of the flags only that one set now was set or enabled before (R191). -/
structure Answered (moves : Prop) (s t : State) : Prop extends Kept s t where
  flags : ∀ i, t.events.flags.getLsbD i = true → (cover s.events).getLsbD i = true
  head  : moves ∨ t.space.head = s.space.head

section
variable {m n : Prop} {s t u : State}

theorem Sound.answered (h : Sound m s t) : Answered m s t :=
  ⟨h.toKept, fun i k => h.cover i (by simp [Machine.cover, k]), h.head⟩

theorem Answered.weaken (h : Answered m s t) (imp : m → n) : Answered n s t := ⟨h.toKept, h.flags, h.head.imp_left imp⟩

theorem Sound.then (h : Sound m s t) (k : Answered m t u) : Answered m s u :=
  ⟨h.toKept.trans k.toKept, fun i => h.cover i ∘ k.flags i,
    h.head.elim .inl fun a => k.head.elim .inl fun b => .inr (b.trans a)⟩

/-- What a register write of configuration leaves as it is. -/
def standing (s : State) : Option Held × Rtq × Ports × Capture × List Staged × Vector Slot 8 × MarkerList × Space × Half :=
  (s.held, s.rtq, s.ports, s.capture, s.staging.queue, s.window, s.markers, s.space, s.events.flags)

theorem answered_of_standing (h : standing t = standing s) : Answered m s t := by
  simp only [standing, Prod.mk.injEq] at h
  obtain ⟨held, rtq, ports, capture, queue, window, markers, space, flags⟩ := h
  refine ⟨⟨⟨?_, ?_, fun k => by rw [rtq]; exact k, fun k => by rw [rtq]; exact k, fun k => by rw [markers]; exact k,
    (stagingOk_congr queue (congrArg Capture.openRec capture) (congrArg Capture.openGap capture)).trans⟩,
    (drafting_congr (by rw [window])).trans_le, fun k => by rw [space]; exact k⟩, fun i k => ?_, .inr (by rw [space])⟩
  · simp only [heldTxn, held, ports]
  · simp only [surplus, writesForwarded, writesAnswered, rtq, ports]
  · rw [flags] at k
    simp [cover, k]

theorem standing_openWrite (a : Half) (v : Word) (s : State) : standing (openWrite a v s) = standing s := by
  unfold openWrite
  split_ifs <;> rfl

theorem standing_setLocked (a : Half) (v : Word) (s : State) : standing (setLocked a v s) = standing s := by
  unfold setLocked
  split_ifs <;> rfl

theorem lockedWrite_answered (a : Half) (v : Word) (s : State) : Answered m s (lockedWrite a v s) := by
  unfold lockedWrite
  split
  · exact answered_of_standing (standing_setLocked a v s)
  · exact (raise_carried .configRefused s).sound.answered

/-- Clearing flags sets none (R192). -/
theorem clearFlags_answered (v : Half) (s : State) : Answered m s (clearFlags v s) := by
  refine ⟨⟨onward_of_path rfl rfl id id, id, id⟩, fun i h => ?_, .inr rfl⟩
  simp only [clearFlags, BitVec.getLsbD_and, Bool.and_eq_true] at h
  simp [cover, h.1]

/-- Only the command word, by START, may set the head. -/
theorem writeFrame_answered (a : Half) (v : Word) (s : State) : Answered (accessOf a = .cmd) s (writeFrame a v s) := by
  unfold writeFrame
  cases accessOf a with
  | ro => exact (sound_of_cargo (by simp) (by simp) (by simp)).answered
  | rw => exact answered_of_standing (standing_openWrite a v s)
  | lk => exact lockedWrite_answered a v s
  | w1c => exact clearFlags_answered _ s
  | wc => exact (sound_of_cargo (by simp) (by simp) (by simp)).answered
  | frc => exact (sound_of_cargo (by simp) (by simp) (by simp)).answered
  | cmd => exact (commandWord_sound s v).answered.weaken fun _ => rfl

theorem mgmtFrame_answered (bits : List Bool) (s : State) :
    Answered (∃ a v, frameKind bits = .write a v ∧ accessOf a = .cmd) s (mgmtFrame bits s) := by
  have shifted {n : Prop} : Sound n s (noteShifted bits s) := sound_of_cargo (by simp) (by simp) (by simp)
  unfold mgmtFrame
  dsimp only
  split
  · rename_i a v kind
    exact shifted.then ((writeFrame_answered a v _).weaken fun cmd => ⟨a, v, kind, cmd⟩)
  · exact shifted.answered
  · exact (shifted.trans (sound_of_cargo (by simp) (by simp) (by simp))).answered

end

end Sys2Proof.Machine
end

section
/-! PROOFS. Flights through the commands (R71, R101, R143): a command that leaves the sending states, or takes the link from its
work, leaves no block on its way. -/

namespace Sys2Proof.Machine

section
variable {s : State}

/-! ## Answers -/

theorem nextNumber_flightOk (ok : flightOk s = true) : flightOk (nextNumber s) = true :=
  (flightOk_still rfl rfl rfl rfl rfl).trans ok

theorem answerCommand_flightOk (code : BitVec 4) (st : CmdStatus) (re : Option Reason) (a b : Word)
    (ok : flightOk s = true) : flightOk (answerCommand code st re a b s) = true :=
  (flightOk_still (by simp) rfl rfl rfl rfl).trans ok

theorem refuse_flightOk (code : BitVec 4) (re : Reason) (ok : flightOk s = true) : flightOk (refuse code re s) = true :=
  answerCommand_flightOk _ _ _ _ _ ok

theorem runCommand_flightOk (code : BitVec 4) (ok : flightOk s = true) : flightOk (runCommand code s) = true :=
  (flightOk_still rfl rfl rfl rfl rfl).trans ok

/-- A command is refused BUSY, or answered by its own rule. -/
theorem takeCommand_flightOk {code : BitVec 4} {admitted : Bool} {own : State → State}
    (each : ∀ s, flightOk s = true → flightOk (own s) = true) (ok : flightOk s = true) :
    flightOk (takeCommand code admitted own s) = true := by
  have next := nextNumber_flightOk ok
  unfold takeCommand
  dsimp only
  split
  · exact refuse_flightOk _ _ next
  · exact each _ next

/-- A journal state that does not send. -/
theorem grounded_of_state (ok : flightOk s = true) {j : JournalState} (state : s.journal.state = j)
    (silent : j = .stopped ∨ j = .starting ∨ j = .paused ∨ j = .faulted) : Grounded s := by
  refine grounded_of_not_sends ok ?_
  rcases silent with rfl | rfl | rfl | rfl <;> rw [sends, state] <;> rfl

/-! ## START -/

theorem startedBridge_grounded (p : Placement) (g : Half) (ch : List Extent) (ground : Grounded s)
    (good : p = .continue → keptPositionsGood ch s.space = true) : Grounded (startedBridge p g ch s) := by
  obtain ⟨f, c⟩ := cargo_startedBridge p g ch s
  have used : (startedBridge p g ch s).space.used = (startSpace p ch s.space).used := congrArg (·.ledger.used) c
  have chain : (startedBridge p g ch s).space.chain = (startSpace p ch s.space).chain := congrArg (·.ledger.chain) c
  have phase : (startedBridge p g ch s).link.phase = s.link.phase := by
    simp [startedBridge, enterRecord, compareRise, startCompares, compareLow]
  have window : (startedBridge p g ch s).window = s.window := by
    simp [startedBridge, enterRecord, compareRise, startCompares, compareLow]
  refine ⟨?_, by rw [airborne, phase]; exact ground.phase, (slotsInFlight_congr (by rw [window])).trans ground.slots⟩
  rw [used, capacity, chain]
  cases p with
  | fromOrigin => exact Nat.zero_le _
  | _ => -- CONTINUE is taken with kept positions that pass the check (R103)
    have kept := good rfl
    simp only [keptPositionsGood, Bool.and_eq_true, decide_eq_true_eq] at kept
    obtain ⟨⟨⟨-, fits⟩, -⟩, -⟩ := kept
    exact fits

theorem startOwn_flightOk (p : BitVec 2) (g : Half) (ok : flightOk s = true) : flightOk (startOwn p g s) = true := by
  unfold startOwn
  split
  · exact refuse_flightOk _ _ ok
  rename_i stopped
  split
  · exact refuse_flightOk _ _ ok
  · exact refuse_flightOk _ _ ok
  split
  · exact refuse_flightOk _ _ ok
  split
  · exact refuse_flightOk _ _ ok
  rename_i kept
  rw [startTaken_bridge]
  refine (beginInit_grounded (startedBridge_grounded _ g _ (grounded_of_state ok (not_not.1 stopped) (.inl rfl)) ?_)).flightOk
  intro cont
  simpa [cont] using kept

theorem startCommand_flightOk (p : BitVec 2) (g : Half) (ok : flightOk s = true) : flightOk (startCommand p g s) = true :=
  takeCommand_flightOk (fun _ h => startOwn_flightOk p g h) ok

/-! ## PAUSE, RESUME and STOP -/

theorem pauseOwn_flightOk (ok : flightOk s = true) : flightOk (pauseOwn s) = true := by
  unfold pauseOwn
  split
  · refine linkChoose_keeps ((requestPauseSeal_framed _).flightOk.trans ?_)
    exact flightOk_sending ok rfl rfl rfl rfl rfl
  · exact refuse_flightOk _ _ ok

theorem resumeOwn_flightOk (ok : flightOk s = true) : flightOk (resumeOwn s) = true := by
  have resumed : flightOk (resumeTaken s) = true :=
    linkChoose_keeps (flightOk_sending ok (by simp [to_cargo]) rfl rfl rfl rfl)
  unfold resumeOwn
  split
  · exact resumed
  · exact resumed
  all_goals exact refuse_flightOk _ _ ok

/-- The end of STOP's happening: the held write settled, the seal asked for, the FINAL MARK offered. -/
theorem drained_flightOk (ok : flightOk s = true) :
    flightOk (linkChoose { requestPauseSeal (settleHeldForStop s) with staging.finalMark := .waiting }) = true := by
  have sealed : flightOk (requestPauseSeal (settleHeldForStop s)) = true :=
    (requestPauseSeal_framed _).flightOk.trans ((settleHeldForStop_carried s).flightOk.trans ok)
  exact linkChoose_keeps ((flightOk_still (t := { requestPauseSeal (settleHeldForStop s) with staging.finalMark := .waiting })
    rfl rfl rfl rfl rfl).trans sealed)

theorem stopOwn_flightOk (ok : flightOk s = true) : flightOk (stopOwn s) = true := by
  unfold stopOwn
  split
  · rename_i active
    have draining : flightOk (runCommand codeStop { s with journal.state := .draining }) = true :=
      flightOk_sending ok rfl rfl rfl rfl rfl
    have notPaused : (s.journal.state == .paused) = false := by rw [active]; rfl
    unfold stopTaken
    dsimp only
    rw [notPaused]
    exact drained_flightOk draining
  · rename_i paused
    have ground : Grounded { runCommand codeStop { s with journal.state := .draining } with link.pauseReq := false } :=
      (grounded_of_state ok paused (.inr (.inr (.inl rfl)))).still rfl rfl rfl
    have wasPaused : (s.journal.state == .paused) = true := by rw [paused]; rfl
    unfold stopTaken
    dsimp only
    rw [wasPaused]
    exact drained_flightOk (linkChoose_flightOk ground)
  · exact runCommand_flightOk _ ok
  all_goals exact refuse_flightOk _ _ ok

/-! ## HALT and SOFT_RESET -/

theorem slotsInFlight_haltPath (s : State) : slotsInFlight (haltPath s) = 0 := by
  rw [slotsInFlight, List.countP_eq_zero]
  intro i _
  simp [haltPath, slotInFlight]

theorem window_abandonLink (s : State) : (abandonLink s).window = s.window := by
  unfold abandonLink
  dsimp only
  split
  · rfl
  · split <;> rfl

/-- An abandoned link has no block on its way (R168). -/
theorem airborne_abandonLink (working : airborne s = true → s.link.state ≠ .off) : airborne (abandonLink s) = false := by
  unfold abandonLink
  dsimp only
  split
  · rename_i off
    by_contra flies
    exact working (by simpa [airborne] using flies) (by simpa using off)
  · split
    iterate 3
      · rename_i phase
        simp [airborne, phase]
    all_goals rfl

theorem haltSteps_flightOk (code : BitVec 4) (ok : flightOk s = true) : flightOk (haltSteps code s) = true := by
  obtain ⟨used, -, flies⟩ := (flightOk_iff s).1 ok
  have halted : Grounded (abandonLink (haltMarkers (haltPath (overtake (nextNumber s))))) := by
    have path := (forwardHeld_carried (overtake (nextNumber s))).course
    have link : (haltMarkers (haltPath (overtake (nextNumber s)))).link = s.link := congrArg Course.link path
    have space : (haltPath (overtake (nextNumber s))).space = s.space := congrArg Course.space path
    refine grounded_next (s := haltMarkers (haltPath (overtake (nextNumber s)))) ?_
      (slotsInFlight_haltPath (overtake (nextNumber s))) (by simp)
      (window_abandonLink _) (airborne_abandonLink fun air => ?_)
    · change (haltPath (overtake (nextNumber s))).space.used ≤ chainCapacity (haltPath (overtake (nextNumber s))).space.chain
      rw [space]
      exact used
    · rw [airborne, link] at air
      rw [link]
      rcases (flies air).2.1 with state | state <;> rw [state] <;> decide
  exact (halted.still (t := haltSteps code s) (by simp [haltSteps, to_cargo]) rfl rfl).flightOk

theorem softResetCommand_flightOk (ok : flightOk s = true) : flightOk (softResetCommand s) = true :=
  haltSteps_flightOk _ ((flightOk_congr (t := clearEvents s) rfl rfl rfl rfl rfl rfl).trans ok)

/-! ## MARK, RECLAIM, READBACK and RECOVER -/

theorem markOwn_flightOk (tag : Half) (ok : flightOk s = true) : flightOk (markOwn tag s) = true := by
  unfold markOwn
  split
  · exact refuse_flightOk _ _ ok
  split
  · exact refuse_flightOk _ _ ok
  split
  · exact refuse_flightOk _ _ ok
  · rename_i granted
    simp only [Bool.or_eq_true, Bool.not_eq_true', not_or, Bool.not_eq_true, Bool.not_eq_false] at granted
    exact answerCommand_flightOk _ _ _ _ _
      ((enterMark_carried tag .command false false granted.1 (room_of_markGranted s granted.2)).flightOk.trans ok)

/-- Fewer blocks in use leave a flight. -/
theorem reclaimBlocks_flightOk (n : Nat) (ok : flightOk s = true) : flightOk (reclaimBlocks n s) = true := by
  obtain ⟨used, slots, flies⟩ := (flightOk_iff s).1 ok
  refine (flightOk_iff (reclaimBlocks n s)).2 ⟨(Nat.sub_le _ n).trans used, slots, fun air => ?_⟩
  obtain ⟨sending, state, free⟩ := flies air
  exact ⟨sending, state, (Nat.sub_le _ n).trans_lt free⟩

theorem reclaimOwn_flightOk (ok : flightOk s = true) : flightOk (reclaimOwn s) = true := by
  unfold reclaimOwn
  dsimp only
  split
  · exact refuse_flightOk _ _ ok
  split
  · exact refuse_flightOk _ _ ok
  · exact linkChoose_keeps (answerCommand_flightOk _ _ _ _ _ (reclaimBlocks_flightOk _ ok))

theorem readbackOwn_flightOk (ok : flightOk s = true) : flightOk (readbackOwn s) = true := by
  have taken (ground : Grounded s) :
      flightOk (if s.link.state = .ready then
          linkChoose (runCommand codeReadback { s with link.readback := some s.argWord })
        else beginInit (runCommand codeReadback { s with link.readback := some s.argWord })) = true := by
    have noted : Grounded (runCommand codeReadback { s with link.readback := some s.argWord }) := ground.still rfl rfl rfl
    split
    · exact linkChoose_flightOk noted
    · exact (beginInit_grounded noted).flightOk
  unfold readbackOwn
  split
  · exact taken (grounded_of_state ok ‹_› (.inl rfl))
  · exact taken (grounded_of_state ok ‹_› (.inr (.inr (.inl rfl))))
  · exact taken (grounded_of_state ok ‹_› (.inr (.inr (.inr rfl))))
  all_goals exact refuse_flightOk _ _ ok

theorem recoverOwn_flightOk (ok : flightOk s = true) : flightOk (recoverOwn s) = true := by
  unfold recoverOwn
  split
  · rename_i faulted
    have ground : Grounded (runCommand codeRecover s) :=
      (grounded_of_state ok faulted (.inr (.inr (.inr rfl)))).still rfl rfl rfl
    exact (beginInit_grounded ground).flightOk
  · exact refuse_flightOk _ _ ok

/-! ## The management port -/

theorem commandWord_flightOk (v : Word) (ok : flightOk s = true) : flightOk (commandWord v s) = true :=
  commandWord_cases s (P := fun t => flightOk t = true) (fun p g => startCommand_flightOk p g ok)
    (takeCommand_flightOk (fun _ => stopOwn_flightOk) ok) (haltSteps_flightOk _ ok)
    (takeCommand_flightOk (fun _ => pauseOwn_flightOk) ok) (takeCommand_flightOk (fun _ => resumeOwn_flightOk) ok)
    (fun tag => takeCommand_flightOk (fun _ => markOwn_flightOk tag) ok)
    (takeCommand_flightOk (fun _ => reclaimOwn_flightOk) ok) (takeCommand_flightOk (fun _ => readbackOwn_flightOk) ok)
    (takeCommand_flightOk (fun _ => recoverOwn_flightOk) ok) (softResetCommand_flightOk ok)
    (fun _ => takeCommand_flightOk (fun _ => refuse_flightOk _ _) ok) v

/-- A flight is read from these parts alone. -/
theorem flightOk_of_parts {t : State} (window : t.window = s.window) (space : t.space = s.space) (link : t.link = s.link)
    (journal : t.journal = s.journal) : flightOk t = flightOk s :=
  flightOk_congr (by rw [space]) (by rw [capacity, space]; rfl) (by rw [window]) (by rw [link]) (by rw [link]) (by rw [journal])

theorem flightOk_openWrite (a : Half) (v : Word) (s : State) : flightOk (openWrite a v s) = flightOk s := by
  unfold openWrite
  split_ifs <;> exact flightOk_of_parts rfl rfl rfl rfl

theorem flightOk_lockedWrite (a : Half) (v : Word) (s : State) : flightOk (lockedWrite a v s) = flightOk s := by
  unfold lockedWrite setLocked
  split_ifs <;> exact flightOk_of_parts rfl rfl rfl rfl

theorem writeFrame_flightOk (a : Half) (v : Word) (ok : flightOk s = true) : flightOk (writeFrame a v s) = true := by
  unfold writeFrame
  cases accessOf a with
  | rw => exact (flightOk_openWrite a v s).trans ok
  | lk => exact (flightOk_lockedWrite a v s).trans ok
  | cmd => exact commandWord_flightOk v ok
  | ro | w1c | wc | frc => exact (flightOk_of_parts rfl rfl rfl rfl).trans ok

theorem mgmtFrame_flightOk (bits : List Bool) (ok : flightOk s = true) : flightOk (mgmtFrame bits s) = true := by
  have shifted : flightOk (noteShifted bits s) = true := by
    unfold noteShifted
    split
    · exact ok
    · exact ok
  unfold mgmtFrame
  dsimp only
  split
  · exact writeFrame_flightOk _ _ shifted
  · exact shifted
  · exact shifted

end

end Sys2Proof.Machine
end

section
/-! PROOFS. What every row and every step keep: order and content, counts, bounds, the one ASSEMBLING slot, the one block on its
way, enabled flags, and the head. -/

namespace Sys2Proof.Machine

/-! ## What a row keeps -/

theorem inOrder_iff (s : State) : inOrder s = true ↔
    s.ports.taken = s.ports.downstream ++ heldTxn s ∧ (s.pornLow = true → s.held = none) := by
  cases h : s.pornLow <;> simp [inOrder, h]

/-- What every row keeps, and every step; the head too, unless the row may move it. -/
structure Lawful (moves : Prop) (s t : State) : Prop where
  order    : inOrder s = true → inOrder t = true
  surplus  : surplus t = surplus s
  tracking : s.rtq.tracking.length ≤ 32 → t.rtq.tracking.length ≤ 32
  voids    : s.rtq.voids.length ≤ 4 → t.rtq.voids.length ≤ 4
  entries  : s.markers.entries.length ≤ 16 → t.markers.entries.length ≤ 16
  staged   : stagingOk s = true → stagingOk t = true
  drafting : drafting s ≤ 1 → drafting t ≤ 1
  durable  : s.space.durableUsed ≤ s.space.used → t.space.durableUsed ≤ t.space.used
  flags    : ∀ i, t.events.flags.getLsbD i = true → (cover s.events).getLsbD i = true
  head     : moves ∨ t.space.head = s.space.head

section
variable {m : Prop} {s t : State}

/-- Rows that take nothing upstream. -/
theorem Answered.lawful (h : Answered m s t) (taken : t.ports.taken = s.ports.taken)
    (low : (s.pornLow = true → s.held = none) → t.pornLow = true → t.held = none) : Lawful m s t := by
  refine ⟨fun ordered => ?_, h.surplus, h.tracking, h.voids, h.entries, h.staged, h.drafting, h.durable, h.flags, h.head⟩
  obtain ⟨order, empty⟩ := (inOrder_iff s).1 ordered
  exact (inOrder_iff t).2 ⟨by rw [taken, order, h.order], low empty⟩

/-- They may change anything that no view speaks of. -/
theorem Sound.lawful (h : Sound m s t) (taken : t.ports.taken = s.ports.taken)
    (low : (s.pornLow = true → s.held = none) → t.pornLow = true → t.held = none) : Lawful m s t :=
  h.answered.lawful taken low

theorem Lawful.refl (s : State) : Lawful m s s := (Sound.refl s).lawful rfl id

end

/-! ## The live rows -/

/-- The commands that may move the head (R103, R104). -/
def mayMoveHead (c : Instr) : Prop := c.wellFormed = true → c = .accept ∨ c = .pornFall ∨ ∃ p g, c = .start p g

theorem mayMoveHead_of_illFormed {c : Instr} (h : c.wellFormed = false) : mayMoveHead c := fun k => by
  rw [h] at k
  cases k

section
variable {c : Instr} {f : State → State}

/-- A token that is not well formed is no ACCEPT. -/
theorem tokenInvalid_sound (code : BitVec 4) (endBit : Bool) (s : State) :
    Sound (mayMoveHead (.tokenInvalid code endBit)) s (takeToken (readToken code endBit) s) := by
  refine takeToken_sound _ s (or_iff_not_imp_right.2 fun k => mayMoveHead_of_illFormed ?_)
  have accept : readToken code endBit = .accept := not_not.1 k
  simp [Instr.wellFormed, tokenWellFormed, accept]

/-- A block in changes the buffer of the settings alone. -/
theorem readBlockIn_sound {m : Prop} (b : BlockIn) (s : State) : Sound m s (readBlockIn b s) := by
  have filled : settings (readBlockIn b s) = settings { s with buffer := (readBlockIn b s).buffer } := by
    rcases settings_readBlockIn b s with e | e
    · have same : (readBlockIn b s).buffer = s.buffer := congrArg Settings.buffer e
      rw [e, same]
    · have same : (readBlockIn b s).buffer = fillBuffer (blockBytes s.link.setupSize) b.bytes := congrArg Settings.buffer e
      rw [e, same]
      rfl
  exact .trans (t := { s with buffer := (readBlockIn b s).buffer }) (Onward.sound ⟨rfl, rfl, id, id, id, id⟩ rfl rfl)
    (sound_of_cargo filled (path_readBlockIn s b) (cargo_readBlockIn s b))

theorem sound_liveOp (h : liveOp c = some f) (s : State) : Sound (mayMoveHead c) s (f s) := by
  cases c <;> try contradiction
  case stallTimeout => cases h; exact (stallExpires_carried s).sound
  case markerWaitExpiry => cases h; exact (markerWaitExpires_carried s).sound
  case fenceLimitExpiry => cases h; exact (fenceExpires_carried s).sound
  case admitPendingVoid => cases h; exact (admitVoid_carried s).sound
  case admitHeldData => cases h; exact (admitData_carried s).sound
  case admitHeldMark => cases h; exact (admitMark_carried s).sound
  case admitFinalMark => cases h; exact (admitFinal_carried s).sound
  case marknRequest => cases h; exact (pinRequest_carried s).sound
  case framerCopy => cases h; exact framerCopies_sound s
  case sealTimerExpiry => cases h; exact sealTimerExpires_sound s
  case accept => cases h; exact takeToken_sound _ s (.inl fun _ => .inl rfl)
  case crcBad => cases h; exact takeToken_sound _ s (.inr nofun)
  case writeFail => cases h; exact takeToken_sound _ s (.inr nofun)
  case range => cases h; exact takeToken_sound _ s (.inr nofun)
  case tokenInvalid code endBit => cases h; exact tokenInvalid_sound code endBit s
  case readBlockReceived b => cases h; exact readBlockIn_sound b s
  case busyEnd => cases h; exact busyEnds_sound s
  all_goals cases h; exact sound_of_cargo (by simp) (by simp) (by simp)

theorem taken_liveOp (h : liveOp c = some f) (s : State) : (f s).ports.taken = s.ports.taken := by
  by_cases block : ∃ b, c = .readBlockReceived b
  · obtain ⟨b, rfl⟩ := block
    cases h
    rcases settings_readBlockIn b s with e | e <;> exact congrArg Settings.taken e
  · exact congrArg Settings.taken (settings_liveOp h (fun b e => block ⟨b, e⟩) s)

theorem pornLow_liveOp (h : liveOp c = some f) (s : State) : (f s).pornLow = s.pornLow := by
  by_cases block : ∃ b, c = .readBlockReceived b
  · obtain ⟨b, rfl⟩ := block
    cases h
    rcases settings_readBlockIn b s with e | e <;> exact congrArg Settings.pornLow e
  · exact congrArg Settings.pornLow (settings_liveOp h (fun b e => block ⟨b, e⟩) s)

/-! ## The management rows -/

/-- A word of an access type other than the command word's. -/
theorem writeFrame_moves {a : Half} {v : Word} {access : Access} (s : State)
    (illFormed : addressWellFormed access a = false → c.wellFormed = false) (other : access ≠ .cmd) :
    Answered (mayMoveHead c) s (writeFrame a v s) := by
  refine (writeFrame_answered a v s).weaken fun cmd => mayMoveHead_of_illFormed (illFormed ?_)
  rw [addressWellFormed, cmd]
  cases access <;> first | rfl | exact absurd rfl other

theorem answered_portOp (h : portOp c = some f) (s : State) : Answered (mayMoveHead c) s (f s) := by
  cases c <;> try contradiction
  case mgmtBadFrame bits =>
    cases h
    refine (mgmtFrame_answered bits s).weaken ?_
    rintro ⟨a, v, kind, cmd⟩
    exact mayMoveHead_of_illFormed (by simp [Instr.wellFormed, badFrameWellFormed, kind, cmd])
  case start p g => cases h; exact (startCommand_sound s p g).answered.weaken fun _ _ => .inr (.inr ⟨p, g, rfl⟩)
  case stop => cases h; exact (stopCommand_sound s).answered
  case halt => cases h; exact (haltSteps_sound codeHalt s).answered
  case softReset => cases h; exact (softResetCommand_sound s).answered
  case pause => cases h; exact (pauseCommand_sound s).answered
  case resume => cases h; exact (resumeCommand_sound s).answered
  case mark tag => cases h; exact (markCommand_sound tag s).answered
  case reclaim => cases h; exact (reclaimCommand_sound s).answered
  case readback => cases h; exact (readbackCommand_sound s).answered
  case recover => cases h; exact (recoverCommand_sound s).answered
  case badCommandCode code => cases h; exact (badCodeCommand_sound s code).answered
  case flagWordWrite v => cases h; exact clearFlags_answered _ s
  case enablesWrite v => cases h; exact answered_of_standing rfl
  case lineEnablesWrite v => cases h; exact answered_of_standing rfl
  case forceWordWrite v => cases h; exact (sound_of_cargo (by simp) (by simp) (by simp)).answered
  case counterClear a v => cases h; exact writeFrame_moves (access := .wc) s id nofun
  case lockedConfigWrite a v => cases h; exact writeFrame_moves (access := .lk) s id nofun
  case registerWrite a v => cases h; exact writeFrame_moves (access := .rw) s id nofun

end

/-! ## The other rows -/

section
variable {m : Prop}

theorem held_forwardHeld (s : State) : (forwardHeld s).held = none := by
  unfold forwardHeld
  split
  · assumption
  · rfl

/-- A fall of PORn forwards the held write and resets the rest (R3). -/
theorem pornFall_lawful (s : State) : Lawful True s (porState (noteCut (forwardHeld s))) := by
  have path := (forwardHeld_carried s).toOnward
  have taken : (porState (noteCut (forwardHeld s))).ports.taken = s.ports.taken :=
    congrArg Settings.taken (settings_forwardHeld s)
  have empty : heldTxn (forwardHeld s) = [] := by rw [heldTxn, held_forwardHeld]
  have drafts : drafting (porState (noteCut (forwardHeld s))) = drafting State.reset := rfl
  have none : drafting State.reset ≤ 1 := by decide
  refine ⟨fun ordered => ?_, path.surplus, fun _ => Nat.zero_le _, fun _ => Nat.zero_le _, fun _ => Nat.zero_le _,
    fun _ => stagingOk_empty rfl rfl rfl, fun _ => drafts ▸ none, fun _ => le_rfl, fun i h => ?_, .inl trivial⟩
  · refine (inOrder_iff _).2 ⟨?_, fun _ => rfl⟩
    have order := path.order
    rw [empty, List.append_nil] at order
    change _ = (forwardHeld s).ports.downstream ++ []
    rw [taken, ((inOrder_iff s).1 ordered).1, order, List.append_nil]
  · have clear : (porState (noteCut (forwardHeld s))).events.flags = 0 := rfl
    rw [clear] at h
    simp at h

/-- A write passes straight through while PORn is low (R3). -/
theorem writePassed_lawful (w : WriteTxn) (s : State) (low : s.pornLow = true) :
    Lawful m s (forwardWrite w (noteTaken (.write w) s)) := by
  have forwarded := (finishWrite_carried w (noteTaken (.write w) s)).toOnward
  refine ⟨fun ordered => ?_, forwarded.surplus, forwarded.tracking, id, id, id, id, id,
    fun i h => ?_, .inr rfl⟩
  · obtain ⟨order, empty⟩ := (inOrder_iff s).1 ordered
    refine (inOrder_iff _).2 ⟨?_, empty⟩
    change s.ports.taken ++ [_] = s.ports.downstream ++ [_] ++ heldTxn s
    rw [order, heldTxn, empty low, List.append_nil, List.append_nil]
  · change s.events.flags.getLsbD i = true at h
    simp [cover, h]

/-- A write is classified and goes its way, or is held (R1, R6). -/
theorem writeTaken_lawful (w : WriteTxn) (s : State) (high : s.pornLow = false) (empty : s.held = none) :
    Lawful m s (classifyWrite w (noteTaken (.write w) s)) := by
  have carried := classifyWrite_carried (w := w) (s := noteTaken (.write w) s) empty
  have kept := (carried.sound (m := m)).answered
  have settled := settings_classifyWrite (noteTaken (.write w) s) w
  have taken : (classifyWrite w (noteTaken (.write w) s)).ports.taken = s.ports.taken ++ [.write w] :=
    congrArg Settings.taken settled
  have porn : (classifyWrite w (noteTaken (.write w) s)).pornLow = s.pornLow := congrArg Settings.pornLow settled
  refine ⟨fun ordered => ?_, kept.surplus, kept.tracking, kept.voids, kept.entries, kept.staged, kept.drafting, kept.durable,
    kept.flags, kept.head⟩
  refine (inOrder_iff _).2 ⟨?_, fun low => absurd (porn.symm.trans low) (by simp [high])⟩
  have order : s.ports.taken = s.ports.downstream ++ heldTxn s := ((inOrder_iff s).1 ordered).1
  rw [heldTxn, empty, List.append_nil] at order
  rw [taken, order, carried.order]
  rfl

/-- A response is counted as it is returned (R18). -/
theorem returnWriteResponse_answered (id : Byte) (a : WriteAnswer) (s : State) :
    Answered m s (returnWriteResponse id a s) := by
  have answered : writesAnswered (returnWriteResponse id a s) = writesAnswered s + 1 := by
    simp [writesAnswered, returnWriteResponse, List.countP_append]
  have same : surplus (returnWriteResponse id a s) = surplus s := by
    have count : (returnWriteResponse id a s).rtq.answerCount = s.rtq.answerCount + 1 := rfl
    rw [surplus, answered, count, BitVec.ofNat_add]
    refine congrArg (s.rtq.forwardCount - BitVec.ofNat 32 (writesForwarded s), ·) ?_
    exact add_sub_add_right_eq_sub _ _ _
  have onward : Onward s (returnWriteResponse id a s) :=
    ⟨rfl, same, fun h => h, fun h => h, fun h => h, fun h => h⟩
  exact (onward.sound rfl rfl).answered

theorem readForwarded_lawful (r : ReadTxn) (s : State) (empty : s.held = none) :
    Lawful m s (forwardRead r (noteTaken (.read r) s)) := by
  have same : surplus (forwardRead r (noteTaken (.read r) s)) = surplus s := by
    simp [surplus, writesForwarded, writesAnswered, forwardRead, noteTaken, List.countP_append]
  refine ⟨fun ordered => ?_, same, id, id, id, id, id, id, fun i h => ?_, .inr rfl⟩
  · obtain ⟨order, low⟩ := (inOrder_iff s).1 ordered
    refine (inOrder_iff _).2 ⟨?_, low⟩
    change s.ports.taken ++ [_] = s.ports.downstream ++ [_] ++ heldTxn s
    rw [order, heldTxn, empty, List.append_nil, List.append_nil]
  · change s.events.flags.getLsbD i = true at h
    simp [cover, h]

end

end Sys2Proof.Machine
end

section
/-! PROOFS. Every row and every step keep the order, the counts, the bounds and the one ASSEMBLING slot; flags need their enables;
and only ACCEPT moves the head. -/

namespace Sys2Proof.Machine

/-! ## Every row is lawful -/

section
variable {c : Instr} {s t : State}

theorem Lawful.weaken {m n : Prop} (h : Lawful m s t) (imp : m → n) : Lawful n s t := { h with head := h.head.imp_left imp }

theorem writeResponse_lawful (id : Byte) (a : WriteAnswer) (s : State) :
    Lawful (mayMoveHead c) s (returnWriteResponse id a (if s.pornLow then s else matchResponse a s)) := by
  split
  · exact (returnWriteResponse_answered id a s).lawful rfl fun empty => empty
  · rename_i high
    have settled := settings_matchResponse s a
    refine ((matchResponse_carried a s).sound.then (returnWriteResponse_answered id a _)).lawful
      (congrArg Settings.taken settled) fun _ low => absurd ?_ high
    exact (congrArg Settings.pornLow settled).symm.trans low

theorem readResponse_lawful (id : Byte) (data : List Byte) (status : Nat) (s : State) :
    Lawful (mayMoveHead c) s { s with ports.upstream := s.ports.upstream ++ [.read id data status] } := by
  have same : surplus { s with ports.upstream := s.ports.upstream ++ [.read id data status] } = surplus s := by
    simp [surplus, writesForwarded, writesAnswered, List.countP_append]
  have onward : Onward s { s with ports.upstream := s.ports.upstream ++ [.read id data status] } :=
    ⟨rfl, same, fun h => h, fun h => h, fun h => h, fun h => h⟩
  exact (onward.sound rfl rfl).lawful rfl fun h => h

theorem otherRow_lawful (row : OtherRow c) (h : exec c s = .next t) : Lawful (mayMoveHead c) s t := by
  cases row with
  | pornFall =>
    rw [exec_pornFall] at h
    cases h
    split
    · exact .refl s
    · exact (pornFall_lawful s).weaken fun _ _ => .inr (.inl rfl)
  | pornRise b =>
    rw [exec_pornRise] at h
    cases h
    split
    · exact (answered_of_standing (s := s) (t := { s with pornLow := false, mgmtIgnore := b }) rfl).lawful rfl
        fun _ low => nomatch low
    · exact .refl s
  | csnRise =>
    rw [exec_csnRise] at h
    cases h
    split
    · exact .refl s
    · exact (answered_of_standing (s := s) (t := { s with mgmtIgnore := false }) rfl).lawful rfl id
  | writeTaken w =>
    rw [exec_writeTaken w s (lengthInRange_of_writeTaken h)] at h
    cases h
    split
    · exact writePassed_lawful w s ‹_›
    · split
      · exact .refl s
      · exact writeTaken_lawful w s (by simp_all) (by simp_all)
  | readTaken r =>
    rw [exec_readTaken r s (lengthInRange_of_readTaken h)] at h
    cases h
    split
    · exact .refl s
    · exact readForwarded_lawful r s (by simp_all)
  | writeResponse id a => rw [exec_writeResponse] at h; cases h; exact writeResponse_lawful id a s
  | readResponse id data status => rw [exec_readResponse] at h; cases h; exact readResponse_lawful id data status s

theorem exec_lawful (h : exec c s = .next t) : Lawful (mayMoveHead c) s t := by
  refine exec_induction (P := Lawful (mayMoveHead c) s) h (.refl s) (fun f row high => ?_) (fun f row acts => ?_)
    fun row => otherRow_lawful row h
  · refine (sound_liveOp row s).lawful (taken_liveOp row s) fun _ low => ?_
    rw [pornLow_liveOp row s, high] at low
    cases low
  · have wires := wires_portOp row s
    have porn : (f s).pornLow = s.pornLow := congrArg (·.1) wires
    have taken : (f s).ports.taken = s.ports.taken := congrArg (·.2.2.2.1) wires
    have high : s.pornLow = false := by
      rw [portOpen] at acts
      cases low : s.pornLow with
      | false => rfl
      | true => simp [low] at acts
    refine (answered_portOp row s).lawful taken fun _ low => ?_
    rw [porn, high] at low
    cases low

/-! ## Every row keeps a flight -/

theorem flightOk_liveOp {f : State → State} (h : liveOp c = some f) (ok : flightOk s = true) : flightOk (f s) = true := by
  cases c <;> try contradiction
  case stallTimeout => cases h; exact (stallExpires_carried s).flightOk.trans ok
  case markerWaitExpiry => cases h; exact (markerWaitExpires_carried s).flightOk.trans ok
  case fenceLimitExpiry => cases h; exact (fenceExpires_carried s).flightOk.trans ok
  case admitPendingVoid => cases h; exact (admitVoid_carried s).flightOk.trans ok
  case admitHeldData => cases h; exact (admitData_carried s).flightOk.trans ok
  case admitHeldMark => cases h; exact (admitMark_carried s).flightOk.trans ok
  case admitFinalMark => cases h; exact (admitFinal_carried s).flightOk.trans ok
  case marknRequest => cases h; exact (pinRequest_carried s).flightOk.trans ok
  case framerCopy => cases h; exact linkChoose_keeps ((framerStep_framed s).flightOk.trans ok)
  case sealTimerExpiry =>
    cases h
    unfold sealTimerExpires
    split
    · exact linkChoose_keeps ((sealTimerRunsOut_framed s).flightOk.trans ok)
    · exact ok
  case linkIdlePeriodEnd => cases h; exact idlePeriodEnds_flightOk ok
  case resetSettleEnd => cases h; exact settleEnds_flightOk ok
  case commandFrameEnd => cases h; exact commandFrameEnds_flightOk ok
  case commandGapEnd => cases h; exact commandGapEnds_flightOk ok
  case respTimeout => cases h; exact windowTimeout_flightOk ok
  case identResponse bits => cases h; exact identResponse_flightOk bits ok
  case pollIntervalEnd => cases h; exact pollEnds_flightOk ok
  case initTimeout => cases h; exact initLimit_flightOk ok
  case setupResponse bits => cases h; exact shortResponse_flightOk (fun _ g => (setupTaken_grounded g).flightOk) ok
  case statusResponse bits => cases h; exact shortResponse_flightOk (fun _ g => initSucceeds_flightOk g) ok
  case writeRunResponse bits => cases h; exact shortResponse_flightOk (fun _ g => writeRunTaken_flightOk g) ok
  case endRunResponse bits => cases h; exact shortResponse_flightOk (fun _ g => (endRunTaken_grounded g).flightOk) ok
  case commitResponse bits => cases h; exact shortResponse_flightOk (fun _ g => (awaitBusy_grounded _ g).flightOk) ok
  case readOneResponse bits => cases h; exact shortResponse_flightOk (fun _ g => (readOneTaken_grounded g).flightOk) ok
  case dataGapEnd => cases h; exact dataGapEnds_flightOk ok
  case blockOutEnd => cases h; exact blockOutEnds_flightOk ok
  case accept => cases h; exact takeToken_flightOk _ ok
  case crcBad => cases h; exact takeToken_flightOk _ ok
  case writeFail => cases h; exact takeToken_flightOk _ ok
  case range => cases h; exact takeToken_flightOk _ ok
  case tokenInvalid code endBit => cases h; exact takeToken_flightOk _ ok
  case tokenTimeout => cases h; exact tokenTimeout_flightOk ok
  case busyEnd => cases h; exact busyEnds_flightOk ok
  case busyTimeout => cases h; exact busyExpires_flightOk ok
  case runIdleExpiry => cases h; exact idleExpires_flightOk ok
  case readBlockReceived b => cases h; exact readBlockIn_flightOk b ok
  case readTimeout => cases h; exact readWindowExpires_flightOk ok

theorem flightOk_portOp {f : State → State} (h : portOp c = some f) (ok : flightOk s = true) : flightOk (f s) = true := by
  cases c <;> try contradiction
  case mgmtBadFrame bits => cases h; exact mgmtFrame_flightOk bits ok
  case start p g => cases h; exact startCommand_flightOk p g ok
  case stop => cases h; exact takeCommand_flightOk (fun _ => stopOwn_flightOk) ok
  case halt => cases h; exact haltSteps_flightOk _ ok
  case softReset => cases h; exact softResetCommand_flightOk ok
  case pause => cases h; exact takeCommand_flightOk (fun _ => pauseOwn_flightOk) ok
  case resume => cases h; exact takeCommand_flightOk (fun _ => resumeOwn_flightOk) ok
  case mark tag => cases h; exact takeCommand_flightOk (fun _ => markOwn_flightOk tag) ok
  case reclaim => cases h; exact takeCommand_flightOk (fun _ => reclaimOwn_flightOk) ok
  case readback => cases h; exact takeCommand_flightOk (fun _ => readbackOwn_flightOk) ok
  case recover => cases h; exact takeCommand_flightOk (fun _ => recoverOwn_flightOk) ok
  case badCommandCode code => cases h; exact takeCommand_flightOk (fun _ => refuse_flightOk _ _) ok
  case counterClear a v => cases h; exact writeFrame_flightOk a v ok
  case lockedConfigWrite a v => cases h; exact writeFrame_flightOk a v ok
  case registerWrite a v => cases h; exact writeFrame_flightOk a v ok
  all_goals cases h; exact (flightOk_of_parts rfl rfl rfl rfl).trans ok

theorem flightOk_otherRow (row : OtherRow c) (h : exec c s = .next t) (ok : flightOk s = true) : flightOk t = true := by
  cases row with
  | pornFall =>
    rw [exec_pornFall] at h
    cases h
    have reset : flightOk State.reset = true := by decide
    split
    · exact ok
    · exact reset
  | pornRise b => rw [exec_pornRise] at h; cases h; split <;> exact ok
  | csnRise => rw [exec_csnRise] at h; cases h; split <;> exact ok
  | writeTaken w =>
    rw [exec_writeTaken w s (lengthInRange_of_writeTaken h)] at h
    cases h
    split
    · exact ok
    · split
      · exact ok
      · have empty : (noteTaken (.write w) s).held = none := by simp_all [noteTaken]
        exact (classifyWrite_carried w empty).flightOk.trans ok
  | readTaken r =>
    rw [exec_readTaken r s (lengthInRange_of_readTaken h)] at h
    cases h
    split <;> exact ok
  | writeResponse id a =>
    rw [exec_writeResponse] at h
    cases h
    split
    · exact ok
    · exact (matchResponse_carried a s).flightOk.trans ok
  | readResponse id data status => rw [exec_readResponse] at h; cases h; exact ok

theorem exec_flightOk (h : exec c s = .next t) (ok : flightOk s = true) : flightOk t = true :=
  exec_induction (P := fun t => flightOk t = true) h ok (fun _ row _ => flightOk_liveOp row ok)
    (fun _ row _ => flightOk_portOp row ok) fun row => flightOk_otherRow row h ok

end

/-! ## Every step -/

section
variable {s t : State}

/-- A quiet microsecond changes timers alone (log entry 5). -/
theorem tick_lawful (s : State) : Lawful True s (tick s) := by
  have same : heldTxn (tick s) = heldTxn s := by
    cases held : s.held <;> simp [heldTxn, tick, held]
  have onward : Onward s (tick s) :=
    ⟨congrArg (s.ports.downstream ++ ·) same, rfl, fun h => h, fun h => h, fun h => h, fun h => h⟩
  exact (onward.sound rfl rfl).lawful rfl fun empty low => by simp [tick, empty low]

theorem step_lawful (h : step s = .next t) : Lawful True s t := by
  unfold step at h
  split at h
  · cases h
    exact tick_lawful s
  · exact { exec_lawful h with head := .inl trivial }

/-- Settles O5: every row keeps the order. -/
theorem stepKeepsOrder : Obligations.StepKeepsOrder := fun _ _ ok h => (step_lawful h).order ok

/-- The counts agree when they have no surplus. -/
theorem countsAgree_iff (s : State) : countsAgree s = true ↔ surplus s = (0, 0) := by
  have agree (a b : Word) : a - b = 0#32 ↔ a = b := sub_eq_zero
  simp [countsAgree, surplus, agree]

/-- Settles O6: every row keeps the surplus of the counts. -/
theorem stepKeepsCounts : Obligations.StepKeepsCounts := fun s t ok h => by
  rw [countsAgree_iff] at ok ⊢
  rw [(step_lawful h).surplus, ok]

/-- Settles O7: lists, space and staging by what every row keeps, the block on its way by its own rules. -/
theorem stepKeepsBounds : Obligations.StepKeepsBounds := by
  intro s t h
  have kept := step_lawful h
  refine ⟨fun ok => ?_, fun ok => ?_, kept.staged, fun ok => ?_⟩
  · simp only [withinBounds, Bool.and_eq_true, decide_eq_true_eq] at ok ⊢
    obtain ⟨⟨entries, tracking⟩, voids⟩ := ok
    exact ⟨⟨kept.entries entries, kept.tracking tracking⟩, kept.voids voids⟩
  · exact decide_eq_true (kept.durable (of_decide_eq_true ok))
  · exact step_keeps (P := fun s => flightOk s = true) h ok (fun _ k => k) (fun k => k) fun _ _ k e => exec_flightOk e k

/-- Settles O8: every row keeps the number of drafts. -/
theorem stepKeepsOneAssembling : Obligations.StepKeepsOneAssembling := fun s t ok h => by
  rw [oneAssembling_iff] at ok ⊢
  exact (step_lawful h).drafting ok

end

/-! ## Flags and the head -/

/-- Settles O12: a flag set now was covered by the flags and the enables. -/
theorem flagsNeedEnables : Obligations.FlagsNeedEnables := fun c s t e h set => by
  have covered := (exec_lawful h).flags _ set
  rwa [cover, BitVec.getLsbD_or, Bool.or_eq_true] at covered

/-- Settles O13: the head stays unless the row may move it. -/
theorem headMovesOnlyOnAccept : Obligations.HeadMovesOnlyOnAccept :=
  fun _ _ _ wf h moved => ((exec_lawful h).head.resolve_right moved) wf

end Sys2Proof.Machine
end
